-- ==== Sys2Proof/Word.lean ====
section
/-! DEFINITION. The words SEQ's registers and bytes are made of (10_state.md R20, 20_memory.md R40). -/

namespace Sys2Proof

/-- A byte of a request descriptor or of a reply, and an 8-bit register (STEPS, SPEED). -/
abbrev Byte := BitVec 8

/-- A phase position, 0..3 (10_state.md R24): its wrap is the spec's "mod 4" (40_tick.md R86). -/
abbrev Pos := BitVec 2

/-- The four phase lines PHASE[3:0] (10_state.md R31). -/
abbrev Lines := BitVec 4

/-- The 16-bit parameter of code 50 (30_encoding.md R58). -/
abbrev Param := BitVec 16

end Sys2Proof
end

