-- ==== Sys2Proof/Config.lean ====
section
/-! DEFINITION. The implementation's parameters (00_scope.md R8), which of them are admitted (60_exceptions.md R133), and
the free values: what the spec leaves OPEN is an opaque constant, of which no proof can see a value. -/

namespace Sys2Proof

/-- ACC_OVERFLOW (00_scope.md R8): what the accumulator does at the top of its range. -/
inductive AccOverflow where
  | saturate
  | wrap
deriving DecidableEq, Repr

/-- REVERSAL (00_scope.md R8, 10_state.md R30) as plain data: the default predicate REV_SIGN, or any other predicate,
given by the pairs (CUR, LAST) at which it holds for a new state SteppingForward and for SteppingBackward (log 14). -/
inductive ReversalRule where
  | revSign
  | pairs (forward backward : List (Pos × Pos))
deriving DecidableEq, Repr

/-- POW10(1) .. POW10(4) (00_scope.md R8, 43_status_commands.md R117). -/
structure Pow10 where
  p1 : Nat
  p2 : Nat
  p3 : Nat
  p4 : Nat
deriving DecidableEq, Repr

/-- The parameters as the implementation gives them, checked or not (00_scope.md R8). -/
structure Params where
  baseInterval  : Nat
  timerWidth    : Nat
  accOverflow   : AccOverflow
  reversal      : ReversalRule
  pow10         : Pow10
  dataOutString : List Byte
  cmdOffset     : Nat
  paramOffset   : Nat
deriving DecidableEq, Repr

/-- The ways a configuration can break a constraint (60_exceptions.md R133). -/
inductive ConfigBreach where
  | timerWidthZero
  | baseIntervalTooLarge
  | pow10Zero
  | dataOutStringEmpty
  | dataOutStringTooLong
  | cmdOffsetOutOfRange
  | paramOffsetOutOfRange
  | offsetsClash
deriving DecidableEq, Repr

/-- Every constraint of 00_scope.md R8 that the parameters break (60_exceptions.md R133). -/
def Params.breaches (p : Params) : List ConfigBreach :=
  (if p.timerWidth = 0 then [.timerWidthZero] else []) ++
  (if p.baseInterval > 2 ^ p.timerWidth - 1 then [.baseIntervalTooLarge] else []) ++
  (if p.pow10.p1 = 0 ∨ p.pow10.p2 = 0 ∨ p.pow10.p3 = 0 ∨ p.pow10.p4 = 0 then [.pow10Zero] else []) ++
  (if p.dataOutString.length = 0 then [.dataOutStringEmpty] else []) ++
  (if p.dataOutString.length > 255 then [.dataOutStringTooLong] else []) ++
  (if p.cmdOffset > 7 then [.cmdOffsetOutOfRange] else []) ++
  (if p.paramOffset > 6 then [.paramOffsetOutOfRange] else []) ++
  (if p.cmdOffset = p.paramOffset ∨ p.cmdOffset = p.paramOffset + 1 then [.offsetsClash] else [])

/-- No breach is found exactly when every constraint holds. -/
theorem Params.breaches_eq_nil_iff (p : Params) :
    p.breaches = [] ↔
      p.timerWidth ≠ 0 ∧ p.baseInterval ≤ 2 ^ p.timerWidth - 1 ∧
      (p.pow10.p1 ≠ 0 ∧ p.pow10.p2 ≠ 0 ∧ p.pow10.p3 ≠ 0 ∧ p.pow10.p4 ≠ 0) ∧
      p.dataOutString.length ≠ 0 ∧ p.dataOutString.length ≤ 255 ∧
      p.cmdOffset ≤ 7 ∧ p.paramOffset ≤ 6 ∧
      p.cmdOffset ≠ p.paramOffset ∧ p.cmdOffset ≠ p.paramOffset + 1 := by
  have nil_iff : ∀ (q : Prop) [Decidable q] (b : ConfigBreach), (if q then [b] else []) = [] ↔ ¬ q := by
    intro q _ b; by_cases h : q <;> simp [h]
  simp only [Params.breaches, List.append_eq_nil_iff, nil_iff]
  omega

/-- An admitted configuration: parameters that break no constraint. A refused one cannot be built, so no claim covers it
(60_exceptions.md R133, log 10). -/
structure Config extends Params where
  admitted : toParams.breaches = []
deriving DecidableEq, Repr

namespace Config

/-- BASE_INTERVAL is OPEN (00_scope.md R9: "The model must not assume any value for it"); sixteen bits, because the reset
machine has the default TIMER_WIDTH = 16 (log 6). -/
opaque openBaseInterval : BitVec 16

/-- DATAOUT_STRING is OPEN (00_scope.md R8): how many bytes it has beyond the first, 0..254 (log 6). -/
opaque openDataOutMore : Fin 255

/-- DATAOUT_STRING is OPEN (00_scope.md R8): its bytes (log 6). -/
opaque openDataOutByte : Nat → Byte

/-- DATAOUT_STRING of the reset machine: any string of 1 to 255 bytes (00_scope.md R8, log 6). -/
def openDataOutString : List Byte :=
  (List.range (openDataOutMore.val + 1)).map openDataOutByte

/-- The free value of the threshold BASE_INTERVAL div 0: SPEED is never 0 in a run (10_state.md R26, 40_tick.md R74), and
the spec gives the quotient no value there (log 8). -/
opaque thresholdAtSpeedZero : Nat → Nat

/-- POW10(i) = 10^i, the default (00_scope.md R8, decision D17). -/
def powersOfTen : Pow10 := ⟨10, 100, 1000, 10000⟩

/-- The parameters of the reset machine: the default where 00_scope.md R8 has one (log 5), OPEN where it has none
(log 6). -/
def hardwareParams : Params where
  baseInterval  := openBaseInterval.toNat
  timerWidth    := 16
  accOverflow   := .saturate
  reversal      := .revSign
  pow10         := powersOfTen
  dataOutString := openDataOutString
  cmdOffset     := 1
  paramOffset   := 2

theorem openDataOutString_length : openDataOutString.length = openDataOutMore.val + 1 := by
  simp [openDataOutString]

/-- The configuration of the reset machine. -/
def hardware : Config where
  toParams := hardwareParams
  admitted := by
    have hb := openBaseInterval.isLt
    have hd := openDataOutMore.isLt
    have hl := openDataOutString_length
    rw [Params.breaches_eq_nil_iff]
    simp only [hardwareParams, powersOfTen]
    omega

/-- The example configuration EX (00_scope.md R10): BASE_INTERVAL = 1000 is a test choice and no property of the
hardware; DATAOUT_STRING stays symbolic. -/
def ex : Config where
  toParams := { hardwareParams with baseInterval := 1000 }
  admitted := by
    have hd := openDataOutMore.isLt
    have hl := openDataOutString_length
    rw [Params.breaches_eq_nil_iff]
    simp only [hardwareParams, powersOfTen]
    omega

end Config

end Sys2Proof
end

