-- ==== Sys2Proof/Syntax.lean ====
section
/-! DEFINITION. The operations as the agents present them, and the instructions they decode to: one constructor per row
of spec/opcode_table.json (30_encoding.md R55, R59, R62). -/

namespace Sys2Proof

/-- The two agents that act on SEQ (00_scope.md R6). -/
inductive Agent where
  | host
  | timeBase
deriving DecidableEq, Repr

/-- One operation as its agent presents it (30_encoding.md R55): the bytes of a request descriptor, or the operand of a
TICK. -/
inductive Operation where
  | command (desc : List Byte)
  | tick (elapsed : Nat)
deriving DecidableEq, Repr

/-- Which agent issues an operation (00_scope.md R6). -/
def Operation.agent : Operation → Agent
  | .command _ => .host
  | .tick _ => .timeBase

/-- Why something presented is no operation of SEQ at all (30_encoding.md R56, R62; log 9). -/
inductive Malformed where
  | descriptorLength
  | elapsedOutOfRange
deriving DecidableEq, Repr

/-- The instructions: the rows of spec/opcode_table.json, in its order. NOP keeps the code it was decoded from, one of the
245 unassigned ones (30_encoding.md R60; log 28). -/
inductive Instr where
  | stop
  | init
  | stepfwd
  | stepbwd
  | rotfwd
  | rotbwd
  | stepsp (param : Param)
  | speedup
  | speeddn
  | dataout
  | speedq
  | nop (code : Byte)
  | tick (elapsed : Nat)
deriving DecidableEq, Repr

/-- Is it a COMMAND (the host's) or the TICK (the time base's)? (30_encoding.md R55) -/
def Instr.isCommand : Instr → Bool
  | .tick _ => false
  | .stop | .init | .stepfwd | .stepbwd | .rotfwd | .rotbwd | .stepsp _ | .speedup | .speeddn | .dataout | .speedq | .nop _ => true

end Sys2Proof
end

