-- ==== Sys2Proof/WellFormed.lean ====
section
/-! DEFINITION. Which instructions and which presented operations are well formed, under a configuration. -/

namespace Sys2Proof

/-- The eleven assigned command codes (30_encoding.md R59). -/
def assignedCodes : List Byte := [0, 1, 3, 4, 5, 6, 50, 100, 101, 200, 201]

/-- An instruction's operands are in the ranges its format gives: NOP has an unassigned code (30_encoding.md R60), ELAPSED
has TIMER_WIDTH bits (R62); PARAM is any 16-bit value (R58). -/
def Instr.wf (c : Config) : Instr → Bool
  | .nop code => !assignedCodes.contains code
  | .tick elapsed => decide (elapsed < 2 ^ c.timerWidth)
  | .stop | .init | .stepfwd | .stepbwd | .rotfwd | .rotbwd | .stepsp _ | .speedup | .speeddn | .dataout | .speedq => true

/-- A presented operation is one of SEQ's: a descriptor of eight bytes (30_encoding.md R56) or an ELAPSED of TIMER_WIDTH
bits (R62). -/
def Operation.wf (c : Config) : Operation → Bool
  | .command desc => decide (desc.length = 8)
  | .tick elapsed => decide (elapsed < 2 ^ c.timerWidth)

end Sys2Proof
end

