-- ==== Sys2Proof/Machine/Operands.lean ====
section
/-! DEFINITION. The operand forms: the fields of a request descriptor under the configured offsets, and the assembly of
the 16-bit parameter (30_encoding.md R56 to R58, 20_memory.md R42). -/

namespace Sys2Proof.Machine

/-- Desc[k] (00_scope.md R12); read only at the offsets 0..7 of an 8-byte descriptor. -/
def descByte (desc : List Byte) (k : Nat) : Byte := desc.getD k 0

/-- CODE = Desc[CMD_OFFSET] (30_encoding.md R56). -/
def descCode (c : Config) (desc : List Byte) : Byte := descByte desc c.cmdOffset

/-- PARAM = PARAM_HI * 256 + PARAM_LO, big-endian (30_encoding.md R58, 20_memory.md R42). -/
def assembleParam (hi lo : Byte) : Param := hi ++ lo

/-- PARAM of a descriptor: the byte at the lower index is the more significant (20_memory.md R42). -/
def descParam (c : Config) (desc : List Byte) : Param :=
  assembleParam (descByte desc c.paramOffset) (descByte desc (c.paramOffset + 1))

/-- PARAM_HI of a parameter (30_encoding.md R56). -/
def paramHi (p : Param) : Byte := p.extractLsb' 8 8

/-- PARAM_LO of a parameter (30_encoding.md R56). -/
def paramLo (p : Param) : Byte := p.extractLsb' 0 8

/-- A descriptor with the given code and parameter at the configured offsets and 0x00 in every other byte
(30_encoding.md R65). -/
def makeDesc (c : Config) (code : Byte) (param : Param) : List Byte :=
  (List.range 8).map fun k =>
    if k = c.cmdOffset then code
    else if k = c.paramOffset then paramHi param
    else if k = c.paramOffset + 1 then paramLo param
    else 0

end Sys2Proof.Machine
end

