-- ==== Sys2Proof/Decode.lean ====
section
/-! DEFINITION. The decoder, total on anything presented and rejecting by name, and after it the encoder
(30_encoding.md R56 to R62, R65). -/

namespace Sys2Proof

/-- The row of the command map chosen by all eight bits of CODE, NOP as the last arm (30_encoding.md R57, R59 to R61);
only code 50 reads the parameter (R58). -/
def commandOf (code : Byte) (param : Param) : Instr :=
  match code with
  | 0x00#8 => .stop
  | 0x01#8 => .init
  | 0x03#8 => .stepfwd
  | 0x04#8 => .stepbwd
  | 0x05#8 => .rotfwd
  | 0x06#8 => .rotbwd
  | 0x32#8 => .stepsp param
  | 0x64#8 => .speedup
  | 0x65#8 => .speeddn
  | 0xC8#8 => .dataout
  | 0xC9#8 => .speedq
  | other => .nop other

/-- The decoder takes the two offsets from the configuration (30_encoding.md R56) and is total on 8-byte descriptors
(R61); what is no operation of SEQ it rejects by name (log 9). -/
def decode (c : Config) : Operation → Except Malformed Instr
  | .command desc =>
    if desc.length = 8 then .ok (commandOf (Machine.descCode c desc) (Machine.descParam c desc))
    else .error .descriptorLength
  | .tick elapsed =>
    if elapsed < 2 ^ c.timerWidth then .ok (.tick elapsed) else .error .elapsedOutOfRange

/-- The operation that presents an instruction, 0x00 in every byte the command does not read (30_encoding.md R59, R62,
R65). -/
def encode (c : Config) : Instr → Operation
  | .stop => .command (Machine.makeDesc c 0x00 0)
  | .init => .command (Machine.makeDesc c 0x01 0)
  | .stepfwd => .command (Machine.makeDesc c 0x03 0)
  | .stepbwd => .command (Machine.makeDesc c 0x04 0)
  | .rotfwd => .command (Machine.makeDesc c 0x05 0)
  | .rotbwd => .command (Machine.makeDesc c 0x06 0)
  | .stepsp param => .command (Machine.makeDesc c 0x32 param)
  | .speedup => .command (Machine.makeDesc c 0x64 0)
  | .speeddn => .command (Machine.makeDesc c 0x65 0)
  | .dataout => .command (Machine.makeDesc c 0xC8 0)
  | .speedq => .command (Machine.makeDesc c 0xC9 0)
  | .nop code => .command (Machine.makeDesc c code 0)
  | .tick elapsed => .tick elapsed

/-- An instruction as spec/opcode_table.json numbers its bits: bits 7..0 are CODE (each CMD row's match and mask), bits
15..8 would be PARAM_HI and 23..16 PARAM_LO, which the table gives no bits. The TICK row has no bits at all and is no
descriptor: a word of no bits is TICK with ELAPSED = 0 (log 13). -/
def tableOperation (c : Config) (nbits w : Nat) : Operation :=
  if nbits = 0 then .tick 0
  else
    let bits := w % 2 ^ nbits
    .command (Machine.makeDesc c (BitVec.ofNat 8 bits)
      (Machine.assembleParam (BitVec.ofNat 8 (bits / 256)) (BitVec.ofNat 8 (bits / 65536))))

/-- The instruction the decoder reads from a table word, under the offsets of the reset machine. -/
def decodeTableWord (nbits w : Nat) : Option Instr :=
  (decode Config.hardware (tableOperation Config.hardware nbits w)).toOption

end Sys2Proof
end

