-- ==== Sys2Proof/Machine/State.lean ====
section
/-! DEFINITION. SEQ's state as plain data (10_state.md R20), the state right after reset (70_reset_and_hazards.md R146),
and the reasons a step can stop. -/

namespace Sys2Proof.Machine

/-- MS and PREV_MS (10_state.md R22, R28): an enumeration, as R22 allows; its two-bit encoding is MotorState.bits. -/
inductive MotorState where
  | stopped
  | idle
  | steppingForward
  | steppingBackward
deriving DecidableEq, Repr

/-- The direction of a stepping state (10_state.md R23). -/
inductive Direction where
  | forward
  | backward
deriving DecidableEq, Repr

/-- No operation of SEQ faults (60_exceptions.md R130, R134: "No behaviour of SEQ is treated as `fault` or `stuck`"), so
there is no fault to name: nobody raises one. -/
inductive Fault where
deriving DecidableEq, Repr

/-- Why the model gives no next state. None of these is an operation of SEQ. -/
inductive Refusal where
  /-- An arm of exec whose instruction has no meaning yet; no arm is so now. Safe. -/
  | notModelled (mnemonic : String)
  /-- Raised by step: what an agent presented is no operation of SEQ (30_encoding.md R56, R62; log 9). Safe. -/
  | malformed (m : Malformed)
  /-- Raised by boot: a configuration that breaks a constraint is refused as a whole, before any operation
  (60_exceptions.md R133; log 10). Safe. -/
  | configuration (breaches : List ConfigBreach)
deriving DecidableEq, Repr

/-- Everything the spec gives the machine (10_state.md R20), the configuration it runs under (00_scope.md R8), the reply
of the last COMMAND (20_memory.md R41) and the operations the agents have presented (20_memory.md R44). -/
structure State where
  /-- The configuration, fixed before the first operation (70_reset_and_hazards.md R148). -/
  cfg : Config
  /-- MS, the motor state (R22). -/
  ms : MotorState
  /-- CUR (R24). -/
  cur : Pos
  /-- LAST (R24). -/
  last : Pos
  /-- STEPS, the step counter (R25). -/
  steps : Byte
  /-- SPEED, the speed divisor (R26). -/
  speed : Byte
  /-- INIT, the initialized flag (R27). -/
  init : Bool
  /-- PREV_MS, the previous-state comparison register (R28). -/
  prevMs : MotorState
  /-- ACC, the elapsed-time accumulator, of TIMER_WIDTH bits (R29; log 12). -/
  acc : Nat
  /-- PHASE[3:0], the phase output lines (R31). -/
  phase : Lines
  /-- The reply of the last COMMAND; none before the first (R41, R146; log 3). -/
  reply : Option (List Byte)
  /-- The operations presented and not yet performed, oldest first (R44; log 1). -/
  pending : List Operation
deriving DecidableEq, Repr

/-- The reset state under a configuration (70_reset_and_hazards.md R146). MS, CUR, LAST and SPEED are the source's values;
STEPS, INIT, ACC and PHASE are decision D11's and PREV_MS is decision D8's (log 7). -/
def State.resetWith (c : Config) : State where
  cfg := c
  ms := .idle
  cur := 2
  last := 0
  steps := 0
  speed := 20
  init := false
  prevMs := .idle
  acc := 0
  phase := 0b0000
  reply := none
  pending := []

/-- The machine right after reset: the parameters without a default stay open (log 5, log 6). -/
def State.reset : State := State.resetWith Config.hardware

end Sys2Proof.Machine
end

