-- ==== Sys2Proof/Machine/Ops.lean ====
section
/-! DEFINITION. The named operations over SEQ's registers: the constants, one write per register (00_scope.md R12), the
reply, position and line arithmetic, the reversal predicate, the accumulator and the threshold, what an agent and the host
can do, and power-up. Nothing traps (60_exceptions.md R130, R135), so there is no operation for taking an exception or
returning from one, and there is no memory (20_memory.md R40), so there is none that reads or writes it. -/

namespace Sys2Proof.Machine

/-! ### Constants (00_scope.md R7) -/

/-- SPEED_MIN. -/
def speedMin : Nat := 1

/-- SPEED_MAX. -/
def speedMax : Nat := 150

/-- The count STEPFWD and STEPBWD load (41_motion_commands.md R102, R103). -/
def singleStep : Byte := 1

/-- ROTATION_STEPS, one full revolution (41_motion_commands.md R104, R105). -/
def rotationSteps : Byte := 48

/-- DIGIT_OFFSET, the code of the character "0" (43_status_commands.md R115). -/
def digitOffset : Nat := 48

/-! ### Register writes `R <- v` (00_scope.md R12); a register not written keeps its value (R13) -/

def State.setMs (s : State) (v : MotorState) : State := { s with ms := v }
def State.setCur (s : State) (v : Pos) : State := { s with cur := v }
def State.setLast (s : State) (v : Pos) : State := { s with last := v }
def State.setSteps (s : State) (v : Byte) : State := { s with steps := v }
def State.setSpeed (s : State) (v : Byte) : State := { s with speed := v }
def State.setInit (s : State) (v : Bool) : State := { s with init := v }
def State.setPrevMs (s : State) (v : MotorState) : State := { s with prevMs := v }
def State.setAcc (s : State) (v : Nat) : State := { s with acc := v }
def State.setPhase (s : State) (v : Lines) : State := { s with phase := v }
def State.setReply (s : State) (v : Option (List Byte)) : State := { s with reply := v }
def State.setPending (s : State) (v : List Operation) : State := { s with pending := v }

/-- `Reply(bytes)`: the reply of the current COMMAND, in place of the one before (00_scope.md R12, 20_memory.md R41). -/
def State.replyWith (s : State) (bytes : List Byte) : State := s.setReply (some bytes)

/-- `Reply()`: a zero-length reply (00_scope.md R12). -/
def State.replyEmpty (s : State) : State := s.replyWith []

/-! ### Motor state and direction -/

/-- The encoding of a motor state (10_state.md R22, decision D2). -/
def MotorState.bits : MotorState → BitVec 2
  | .stopped => 0b00
  | .idle => 0b01
  | .steppingForward => 0b10
  | .steppingBackward => 0b11

/-- The motor state of an encoding; none is reserved (10_state.md R22). -/
def MotorState.ofBits (b : BitVec 2) : MotorState :=
  if b = 0b00 then .stopped
  else if b = 0b01 then .idle
  else if b = 0b10 then .steppingForward
  else .steppingBackward

/-- The direction of a stepping state; Stopped and Idle have none (10_state.md R23). -/
def MotorState.direction : MotorState → Option Direction
  | .stopped => none
  | .idle => none
  | .steppingForward => some .forward
  | .steppingBackward => some .backward

/-- The stepping state of a direction (10_state.md R23). -/
def Direction.motorState : Direction → MotorState
  | .forward => .steppingForward
  | .backward => .steppingBackward

/-- Is it a stepping state? (10_state.md R23) -/
def MotorState.stepping (m : MotorState) : Bool := m.direction.isSome

/-! ### Positions (40_tick.md R86): every write is mod 4, as the two-bit wrap is -/

/-- (p + dir) mod 4, one step in the direction (10_state.md R23). -/
def Direction.ahead : Direction → Pos → Pos
  | .forward, p => p + 1
  | .backward, p => p - 1

/-- (p - dir) mod 4, one step against the direction. -/
def Direction.behind : Direction → Pos → Pos
  | .forward, p => p - 1
  | .backward, p => p + 1

/-! ### The reversal predicate (10_state.md R30) -/

/-- d = int(CUR) - int(LAST), with no modular reduction (00_scope.md R11, 10_state.md R30). -/
def positionDifference (cur last : Pos) : Int := (cur.toNat : Int) - (last.toNat : Int)

/-- REV_SIGN(newMS, CUR, LAST) for a stepping state of the given direction (10_state.md R30, decision D9; log 19). -/
def revSign (d : Direction) (cur last : Pos) : Bool :=
  match d with
  | .forward => decide (positionDifference cur last < 0)
  | .backward => decide (0 < positionDifference cur last)

/-- REVERSAL(newMS, CUR, LAST); it is asked only when the new state is a stepping state (10_state.md R30). -/
def reversal (c : Config) (d : Direction) (cur last : Pos) : Bool :=
  match c.reversal with
  | .revSign => revSign d cur last
  | .pairs forward backward =>
    match d with
    | .forward => forward.contains (cur, last)
    | .backward => backward.contains (cur, last)

/-! ### Phase lines (10_state.md R31): line i belongs to position i, 1 = high = energized (decision D12) -/

/-- The mask of one line. -/
def lineMask (i : Pos) : Lines := 1#4 <<< i.toNat

/-- The level of line i. -/
def lineLevel (l : Lines) (i : Pos) : Bool := l.getLsbD i.toNat

/-- `PHASE[i] <- 1`: energize line i only (00_scope.md R12, R14). -/
def energize (l : Lines) (i : Pos) : Lines := l ||| lineMask i

/-- `PHASE[i] <- 0`: de-energize line i only (00_scope.md R12, R14). -/
def deenergize (l : Lines) (i : Pos) : Lines := l &&& ~~~lineMask i

/-- All four lines low (40_tick.md R78). -/
def allLow : Lines := 0b0000

/-! ### The interval timer (60_exceptions.md R137) -/

/-- The largest value of ACC: 2^TIMER_WIDTH - 1 (10_state.md R29). -/
def accMax (c : Config) : Nat := 2 ^ c.timerWidth - 1

/-- ACC_ADD(a, e) (40_tick.md R70, R73). -/
def accAdd (c : Config) (a e : Nat) : Nat :=
  match c.accOverflow with
  | .saturate => min (a + e) (accMax c)
  | .wrap => (a + e) % 2 ^ c.timerWidth

/-- THR = BASE_INTERVAL div SPEED, truncating (40_tick.md R74, decision D6; log 16). SPEED = 0 is no legal value: the
quotient is then a free value (log 8). -/
def threshold (c : Config) (speed : Byte) : Nat :=
  if speed = 0 then Config.thresholdAtSpeedZero c.baseInterval else c.baseInterval / speed.toNat

/-! ### The clamped speed (42_speed_commands.md R110, R111) -/

/-- min(SPEED + 1, 150), the sum formed without 8-bit wrap. -/
def speedRaised (v : Byte) : Byte := BitVec.ofNat 8 (min (v.toNat + 1) speedMax)

/-- max(SPEED - 1, 1), the difference formed without wrap. -/
def speedLowered (v : Byte) : Byte := BitVec.ofNat 8 (max (v.toNat - 1) speedMin)

/-! ### The agents and the host -/

/-- An agent presents one more operation, after all those already presented (20_memory.md R44). -/
def State.present (s : State) (op : Operation) : State := s.setPending (s.pending ++ [op])

/-- The oldest operation presented and the state with it taken; nothing if none is presented (20_memory.md R44). -/
def State.takePending (s : State) : Option (Operation × State) :=
  match s.pending with
  | [] => none
  | op :: rest => some (op, s.setPending rest)

/-- An operation presented before all others, so that the next step performs it (log 13). -/
def State.presentFirst (s : State) (op : Operation) : State := s.setPending (op :: s.pending)

/-- RLEN and the bytes the host may read: those of the last COMMAND's reply, none before the first COMMAND or when RLEN is
0 (20_memory.md R41). -/
def State.replyBytes (s : State) : List Byte := s.reply.getD []

/-- RLEN (20_memory.md R41). -/
def State.replyLength (s : State) : Nat := s.replyBytes.length

/-- Power-up (70_reset_and_hazards.md R145, R148): impossible parameters are refused as a whole, before any operation
(60_exceptions.md R133); otherwise the machine is in its reset state. -/
def boot (p : Params) : Host.Outcome State Fault Refusal :=
  if h : p.breaches = [] then .next (State.resetWith ⟨p, h⟩) else .refused (.configuration p.breaches)

end Sys2Proof.Machine
end

