-- ==== Sys2Proof/Machine/Flags.lean ====
section
/-! DEFINITION. The one flag of SEQ, INIT, the initialized flag (10_state.md R27); there are no condition codes. -/

namespace Sys2Proof.Machine

/-- Mark initialized: command 1 (41_motion_commands.md R101) and the Idle action (40_tick.md R79). -/
def State.markInitialized (s : State) : State := s.setInit true

/-- Mark uninitialized: command 0 (41_motion_commands.md R100) and the Stopped action (40_tick.md R78). -/
def State.markUninitialized (s : State) : State := s.setInit false

end Sys2Proof.Machine
end

