-- ==== Sys2Proof/Machine/Motion.lean ====
section
/-! DEFINITION. The motion commands, codes 0, 1, 3, 4, 5, 6 (41_motion_commands.md R100 to R106). -/

namespace Sys2Proof.Machine

/-- What the four stepping commands do: the direction's stepping state, a fresh count, an empty reply (R102 to R105). -/
def startStepping (d : Direction) (count : Byte) (s : State) : State :=
  ((s.setMs d.motorState).setSteps count).replyEmpty

/-- STOP (R100): `MS <- Stopped; INIT <- 0; Reply()`. -/
def execStop (s : State) : Host.Outcome State Fault Refusal :=
  .next (s.setMs .stopped).markUninitialized.replyEmpty

/-- INIT (R101): `MS <- Idle; INIT <- 1; Reply()`. -/
def execInit (s : State) : Host.Outcome State Fault Refusal :=
  .next (s.setMs .idle).markInitialized.replyEmpty

/-- STEPFWD (R102): `MS <- Fwd; STEPS <- 1; Reply()`. -/
def execStepfwd (s : State) : Host.Outcome State Fault Refusal := .next (startStepping .forward singleStep s)

/-- STEPBWD (R103): `MS <- Bwd; STEPS <- 1; Reply()`. -/
def execStepbwd (s : State) : Host.Outcome State Fault Refusal := .next (startStepping .backward singleStep s)

/-- ROTFWD (R104): `MS <- Fwd; STEPS <- ROTATION_STEPS; Reply()`. -/
def execRotfwd (s : State) : Host.Outcome State Fault Refusal := .next (startStepping .forward rotationSteps s)

/-- ROTBWD (R105): `MS <- Bwd; STEPS <- ROTATION_STEPS; Reply()`. -/
def execRotbwd (s : State) : Host.Outcome State Fault Refusal := .next (startStepping .backward rotationSteps s)

end Sys2Proof.Machine
end

