-- ==== Sys2Proof/Machine/Speed.lean ====
section
/-! DEFINITION. The speed commands, codes 100 and 101 (42_speed_commands.md R110 to R113). -/

namespace Sys2Proof.Machine

/-- SPEEDUP (R110): `SPEED <- min(SPEED + 1, SPEED_MAX); Reply()`. -/
def execSpeedup (s : State) : Host.Outcome State Fault Refusal :=
  .next (s.setSpeed (speedRaised s.speed)).replyEmpty

/-- SPEEDDN (R111): `SPEED <- max(SPEED - 1, SPEED_MIN); Reply()`. -/
def execSpeeddn (s : State) : Host.Outcome State Fault Refusal :=
  .next (s.setSpeed (speedLowered s.speed)).replyEmpty

end Sys2Proof.Machine
end

