-- ==== Sys2Proof/Machine/Decimal.lean ====
section
/-! DEFINITION. The two decimal encoders of the replies (43_status_commands.md R115, R117). -/

namespace Sys2Proof.Machine

/-- A digit's byte: (k + 48) mod 256 (43_status_commands.md R117, decision D17). -/
def digitByte (k : Nat) : Byte := BitVec.ofNat 8 (k + digitOffset)

/-- ENC3: hundreds, tens, units, no zero suppression (43_status_commands.md R115). -/
def enc3 (v : Byte) : List Byte :=
  [digitByte (v.toNat / 100), digitByte (v.toNat / 10 % 10), digitByte (v.toNat % 10)]

/-- The inner loop of ENC5 at one power: subtract it while the rest is at least it, counting in k; the answer is the count
and the rest. The fuel bounds the passes by the value the loop starts from, which is enough for every power of at least 1
(60_exceptions.md R134: "at most v div POW10(i) times"). -/
def digitLoop (power : Nat) : (fuel k r : Nat) → Nat × Nat
  | 0, k, r => (k, r)
  | fuel + 1, k, r => if power ≤ r then digitLoop power fuel (k + 1) (r - power) else (k, r)

/-- One digit of ENC5 and the rest after it (43_status_commands.md R117). -/
def digitAt (power r : Nat) : Nat × Nat := digitLoop power r 0 r

/-- ENC5 with the parameter POW10: digits 4, 3, 2, 1 by repeated subtraction, the remaining value as digit 0, the most
significant first (43_status_commands.md R117). -/
def enc5 (p : Pow10) (v : Param) : List Byte :=
  let d4 := digitAt p.p4 v.toNat
  let d3 := digitAt p.p3 d4.2
  let d2 := digitAt p.p2 d3.2
  let d1 := digitAt p.p1 d2.2
  [digitByte d4.1, digitByte d3.1, digitByte d2.1, digitByte d1.1, digitByte d1.2]

end Sys2Proof.Machine
end

