-- ==== Sys2Proof/Machine/Status.lean ====
section
/-! DEFINITION. The read-back, boundary and unassigned commands, codes 201, 50, 200 and every other
(43_status_commands.md R116 to R120). None writes a register. -/

namespace Sys2Proof.Machine

/-- STEPSP (R118): `Reply(ENC5(PARAM))`; STEPS is not written, despite the name. -/
def execStepsp (param : Param) (s : State) : Host.Outcome State Fault Refusal :=
  .next (s.replyWith (enc5 s.cfg.pow10 param))

/-- DATAOUT (R119): `Reply(DATAOUT_STRING)`. -/
def execDataout (s : State) : Host.Outcome State Fault Refusal := .next (s.replyWith s.cfg.dataOutString)

/-- SPEEDQ (R116): `Reply(ENC3(SPEED))`. -/
def execSpeedq (s : State) : Host.Outcome State Fault Refusal := .next (s.replyWith (enc3 s.speed))

/-- NOP, every unassigned code (R120): `Reply()`. -/
def execNop (s : State) : Host.Outcome State Fault Refusal := .next s.replyEmpty

end Sys2Proof.Machine
end

