-- ==== Sys2Proof/Machine/Tick.lean ====
section
/-! DEFINITION. TICK, the operation of the time base (40_tick.md R70 to R87): the reversal correction, the time gate, and
on a qualifying TICK the action of the motor state. -/

namespace Sys2Proof.Machine

/-! ### Phase 1: direction-reversal correction (R71, R72) -/

/-- CUR after the correction test of a TICK at which MS differs from PREV_MS: one step in the direction of the new state
where REVERSAL holds, unchanged where it does not or the new state has no direction (R71, decision D10; log 20). -/
def correctedCur (s : State) : Pos :=
  match s.ms.direction with
  | some d => if reversal s.cfg d s.cur s.last then d.ahead s.cur else s.cur
  | none => s.cur

/-- The reversal correction, a named transition (R71), and the recording of the comparison value (R72, decision D8;
log 18). -/
def correctReversal (s : State) : State :=
  if s.ms = s.prevMs then s else (s.setCur (correctedCur s)).setPrevMs s.ms

/-! ### Phase 2: the time gate (R73 to R75) -/

/-- ACC <- ACC_ADD(ACC, ELAPSED) (R73, decision D7; log 17). -/
def accumulate (elapsed : Nat) (s : State) : State := s.setAcc (accAdd s.cfg s.acc elapsed)

/-- Phases 1 and 2 of a TICK: all that a non-qualifying TICK does (R75). -/
def gateTick (elapsed : Nat) (s : State) : State := accumulate elapsed (correctReversal s)

/-- The gate passes: ACC >= THR, equality included (R74). -/
def gatePasses (s : State) : Bool := decide (threshold s.cfg s.speed ≤ s.acc)

/-! ### Phase 3: the qualifying TICK (R76 to R81) -/

/-- The Stopped action (R78). -/
def stoppedAction (s : State) : State := ((s.setPhase allLow).setSteps 0).markUninitialized

/-- The Idle action, the holding energization: only the lines of LAST and CUR are written (R79, decision D13; log 21). -/
def idleAction (s : State) : State :=
  if s.init then s
  else (s.setPhase (energize (energize s.phase s.last) s.cur)).markInitialized

/-- One step in a direction, from CUR = c (R80, R81, 00_scope.md R15): LAST's line is cleared, then CUR's is set
(decision D14; log 22). -/
def takeStep (d : Direction) (s : State) : State :=
  let s1 := ((s.setSteps (s.steps - 1)).setLast (d.behind s.cur)).setCur (d.ahead s.cur)
  s1.setPhase (energize (deenergize s1.phase s1.last) s1.cur)

/-- The action of a stepping state: a step while STEPS > 0, then Idle (R80, R81). -/
def steppingAction (d : Direction) (s : State) : State :=
  if s.steps = 0 then s.setMs .idle else takeStep d s

/-- Exactly one of the four actions, chosen by MS (R77). -/
def stateAction (s : State) : State :=
  match s.ms with
  | .stopped => stoppedAction s
  | .idle => idleAction s
  | .steppingForward => steppingAction .forward s
  | .steppingBackward => steppingAction .backward s

/-- What a TICK whose gate passed does: ACC <- 0, then the action of the state (R76, R77). -/
def qualifyTick (s : State) : State := stateAction (s.setAcc 0)

/-- The state a TICK leaves (R70): phases 1 and 2, and phase 3 when the gate passes. -/
def tickState (elapsed : Nat) (s : State) : State :=
  if gatePasses (gateTick elapsed s) then qualifyTick (gateTick elapsed s) else gateTick elapsed s

/-- TICK(ELAPSED) (R70). It always completes (60_exceptions.md R130); it returns no reply, and the last COMMAND's reply
stays (20_memory.md R41). -/
def execTick (elapsed : Nat) (s : State) : Host.Outcome State Fault Refusal := .next (tickState elapsed s)

end Sys2Proof.Machine
end

