-- ==== Sys2Proof/Machine/Dispatch.lean ====
section
/-! DEFINITION. One arm per row of spec/opcode_table.json. -/

namespace Sys2Proof.Machine

def exec (i : Instr) (s : State) : Host.Outcome State Fault Refusal :=
  match i with
  -- motion commands (41_motion_commands.md)
  | .stop => Sys2Proof.Machine.execStop s
  | .init => Sys2Proof.Machine.execInit s
  | .stepfwd => Sys2Proof.Machine.execStepfwd s
  | .stepbwd => Sys2Proof.Machine.execStepbwd s
  | .rotfwd => Sys2Proof.Machine.execRotfwd s
  | .rotbwd => Sys2Proof.Machine.execRotbwd s
  -- boundary command, code 50 (43_status_commands.md)
  | .stepsp param => Sys2Proof.Machine.execStepsp param s
  -- speed commands (42_speed_commands.md)
  | .speedup => Sys2Proof.Machine.execSpeedup s
  | .speeddn => Sys2Proof.Machine.execSpeeddn s
  -- boundary, read-back and unassigned commands (43_status_commands.md)
  | .dataout => Sys2Proof.Machine.execDataout s
  | .speedq => Sys2Proof.Machine.execSpeedq s
  | .nop _ => Sys2Proof.Machine.execNop s
  -- the time base (40_tick.md)
  | .tick elapsed => Sys2Proof.Machine.execTick elapsed s

end Sys2Proof.Machine
end

