-- ==== Sys2Proof/Machine/Step.lean ====
section
/-! DEFINITION. One step: SEQ performs the oldest operation presented, whole (20_memory.md R43, R44). -/

namespace Sys2Proof.Machine

/-- With nothing presented SEQ waits and nothing changes (00_scope.md R6, 70_reset_and_hazards.md R147; log 2). -/
def step (s : State) : Host.Outcome State Fault Refusal :=
  match s.takePending with
  | none => .next s
  | some (op, t) =>
    match decode s.cfg op with
    | .ok i => exec i t
    | .error m => .refused (.malformed m)

/-- The operation of a table word presented before all others, so that the very next step performs it (log 13). -/
def State.withFetchWord (s : State) (nbits w : Nat) : State := s.presentFirst (tableOperation s.cfg nbits w)

end Sys2Proof.Machine
end

