-- ==== Sys2Proof/Machine/Program.lean ====
section
/-! DEFINITION. The spec's notation for programs (30_encoding.md R64, R65): a program is a sequence of operations the
agents present in order. It has no control flow; SEQ holds no program (10_state.md R21). -/

namespace Sys2Proof.Machine

/-- One line of a program (30_encoding.md R64). -/
inductive Line where
  /-- `CMD <MNEMONIC>`, `CMD STEPSP <value16>`. -/
  | cmd (i : Instr)
  /-- `CMD 0x<hh>`: a COMMAND with the raw CODE. -/
  | raw (code : Byte)
  /-- `TICK <n>`. -/
  | tick (elapsed : Nat)
  /-- `REPEAT <k>`: the lines written k times in sequence, no operation of its own. -/
  | times (k : Nat) (body : List Line)

mutual
/-- The operations one line stands for (30_encoding.md R65). -/
def Line.operations (c : Config) : Line → List Operation
  | .cmd i => [encode c i]
  | .raw code => [.command (makeDesc c code 0)]
  | .tick elapsed => [.tick elapsed]
  | .times k body => (List.replicate k (programOperations c body)).flatten
termination_by structural l => l

/-- The operations a program stands for, in the order they are performed (30_encoding.md R64). -/
def programOperations (c : Config) : List Line → List Operation
  | [] => []
  | l :: ls => l.operations c ++ programOperations c ls
termination_by structural ls => ls
end

/-- The agents present a program's operations after all those already presented (20_memory.md R44; log 13). -/
def State.presentProgram (s : State) (p : List Line) : State := s.setPending (s.pending ++ programOperations s.cfg p)

end Sys2Proof.Machine
end

