-- ==== Sys2Proof/Safety.lean ====
section
/-! DEFINITION. The terms the claims use: the invariants of 10_state.md R34 and 40_tick.md R79, what an admitted run is
(20_memory.md R44), and what a run shows (60_exceptions.md R140). -/

namespace Sys2Proof.Machine

/-- The invariants every reachable state satisfies (10_state.md R34); CUR, LAST and INIT are in range by their types. -/
abbrev State.Legal (s : State) : Prop :=
  1 ≤ s.speed.toNat ∧ s.speed.toNat ≤ 150 ∧ s.steps.toNat ≤ 48 ∧ s.acc ≤ 2 ^ s.cfg.timerWidth - 1

/-- Why the Idle energization always sets two lines in a run (40_tick.md R79, R85 (e), R87): a stepping state with STEPS = 0
has just been left by a step, and so has an Idle state that is not initialized, unless it is the reset state; in each the
positions are two apart. -/
abbrev State.TwoLinesToHold (s : State) : Prop :=
  (s.ms.stepping = true → s.steps = 0 → s.prevMs = s.ms ∧ s.cur - s.last = 2) ∧
  (s.ms = .idle → s.init = false → s.cur - s.last = 2)

/-- Everything presented is an operation of SEQ (30_encoding.md R55). -/
abbrev State.PendingWellFormed (s : State) : Prop := ∀ op ∈ s.pending, op.wf s.cfg = true

/-- A TICK with this operand qualifies: ACC_ADD(ACC, ELAPSED) >= THR (40_tick.md R74). -/
abbrev State.Qualifies (s : State) (elapsed : Nat) : Prop :=
  threshold s.cfg s.speed ≤ accAdd s.cfg s.acc elapsed

/-- Every descriptor with this CODE decodes to the instruction, whatever its other bytes (30_encoding.md R57). -/
def CodeDecodesTo (code : Byte) (i : Instr) : Prop :=
  ∀ (c : Config) (desc : List Byte), desc.length = 8 → desc.getD c.cmdOffset 0 = code →
    decode c (.command desc) = .ok i

/-- One total order of two sequences that keeps the order of each (20_memory.md R44). -/
inductive Interleaves {α : Type} : List α → List α → List α → Prop where
  | nil : Interleaves [] [] []
  | left (x : α) {xs ys zs : List α} : Interleaves xs ys zs → Interleaves (x :: xs) ys (x :: zs)
  | right (y : α) {xs ys zs : List α} : Interleaves xs ys zs → Interleaves xs (y :: ys) (y :: zs)

/-- The instructions performed one after another, each on the state the one before left (20_memory.md R44, R49). -/
def perform : List Instr → State → Host.Outcome State Fault Refusal
  | [], s => .next s
  | i :: is, s =>
    match exec i s with
    | .next t => perform is t
    | .fault f => .fault f
    | .refused r => .refused r

/-- What a run shows (60_exceptions.md R140): the last state, the replies of its COMMANDs, and the lines after each
operation. -/
structure Observation where
  final : State
  replies : List (List Byte)
  lines : List Lines
deriving DecidableEq, Repr

/-- The observation of a run of instructions (60_exceptions.md R140). -/
def observe : List Instr → State → Host.Outcome Observation Fault Refusal
  | [], s => .next ⟨s, [], []⟩
  | i :: is, s =>
    match exec i s with
    | .next t =>
      match observe is t with
      | .next o =>
        .next { o with
          replies := if i.isCommand then t.replyBytes :: o.replies else o.replies
          lines := t.phase :: o.lines }
      | .fault f => .fault f
      | .refused r => .refused r
    | .fault f => .fault f
    | .refused r => .refused r

end Sys2Proof.Machine
end

