-- ==== Sys2Proof/Certificates/Slice0/Obligations.lean ====
section
/-! DEFINITION. The statements for the provers. Each docstring names the rule of spec/ it formalises; where a statement
rests on a decision of the spec's own (92_eei_decisions.md) or of the model's, the docstring names it and its log entry. -/

open Sys2Proof Sys2Proof.Machine

/-! ### Decoding and encoding -/

/-- Encoding and decoding agree for every well-formed instruction under every admitted configuration, whatever its offsets
(30_encoding.md R56, R62, R65). -/
def Obligations.DecodeOfEncodeIsTheInstruction : Prop :=
  ∀ (c : Config) (i : Instr), i.wf c = true → decode c (encode c i) = .ok i

/-- The command map (30_encoding.md R57 to R61): CODE alone selects the row, NOP is the last arm, and only code 50 reads the
big-endian parameter, at whatever offsets the configuration has. That NOP keeps its code is the model's choice (log 28). -/
def Obligations.CodeAloneSelectsTheCommand : Prop :=
  ∀ (c : Config) (desc : List Byte) (code : Byte) (hi lo : Byte), desc.length = 8 →
    desc.getD c.cmdOffset 0 = code → desc.getD c.paramOffset 0 = hi → desc.getD (c.paramOffset + 1) 0 = lo →
    decode c (.command desc) = .ok
      (if code = 0x00 then .stop
       else if code = 0x01 then .init
       else if code = 0x03 then .stepfwd
       else if code = 0x04 then .stepbwd
       else if code = 0x05 then .rotfwd
       else if code = 0x06 then .rotbwd
       else if code = 0x32 then .stepsp (BitVec.ofNat 16 (hi.toNat * 256 + lo.toNat))
       else if code = 0x64 then .speedup
       else if code = 0x65 then .speeddn
       else if code = 0xC8 then .dataout
       else if code = 0xC9 then .speedq
       else .nop code)

/-- Operand assembly (30_encoding.md R58): code 50 reads PARAM_HI * 256 + PARAM_LO, unsigned; every other command ignores
both bytes, and every byte but CODE, and so has no operand. -/
def Obligations.OnlyCode50ReadsTheParameter : Prop :=
  ∀ (c : Config) (desc : List Byte), desc.length = 8 →
    (desc.getD c.cmdOffset 0 = 0x32 → ∃ param : Param, decode c (.command desc) = .ok (.stepsp param) ∧
      param.toNat = (desc.getD c.paramOffset 0).toNat * 256 + (desc.getD (c.paramOffset + 1) 0).toNat) ∧
    (desc.getD c.cmdOffset 0 ≠ 0x32 →
      (∀ param : Param, decode c (.command desc) ≠ .ok (.stepsp param)) ∧
      ∀ other : List Byte, other.length = 8 → other.getD c.cmdOffset 0 = desc.getD c.cmdOffset 0 →
        decode c (.command other) = decode c (.command desc))

/-- The written-out descriptors of 30_encoding.md R65 decode to their lines, under its default offsets (decision D15,
log 5). -/
def Obligations.WrittenOutDescriptorsDecode : Prop :=
  decode Config.ex (.command [0x00, 0x00, 0x00, 0x00, 0x00, 0x00, 0x00, 0x00]) = .ok .stop ∧
  decode Config.ex (.command [0x00, 0x03, 0x00, 0x00, 0x00, 0x00, 0x00, 0x00]) = .ok .stepfwd ∧
  decode Config.ex (.command [0x00, 0x32, 0x00, 0x0A, 0x00, 0x00, 0x00, 0x00]) = .ok (.stepsp 10) ∧
  decode Config.ex (.command [0x00, 0x65, 0x00, 0x00, 0x00, 0x00, 0x00, 0x00]) = .ok .speeddn ∧
  decode Config.ex (.command [0x00, 0xC9, 0x00, 0x00, 0x00, 0x00, 0x00, 0x00]) = .ok .speedq ∧
  decode Config.ex (.command [0x00, 0x02, 0x00, 0x00, 0x00, 0x00, 0x00, 0x00]) = .ok (.nop 2) ∧
  decode Config.ex (.tick 50) = .ok (.tick 50)

/-- What is no operation of SEQ, a byte string that is not eight bytes long or an ELAPSED that does not fit TIMER_WIDTH
bits, is refused by name and never performed (the model's choice, log 9). -/
def Obligations.WhatIsNoOperationIsRefused : Prop :=
  ∀ (s : State) (rest : List Operation),
    (∀ desc : List Byte, desc.length ≠ 8 → s.pending = .command desc :: rest →
      step s = .refused (.malformed .descriptorLength)) ∧
    (∀ e : Nat, 2 ^ s.cfg.timerWidth ≤ e → s.pending = .tick e :: rest →
      step s = .refused (.malformed .elapsedOutOfRange))

/-! ### The step -/

/-- A step runs the decoded instruction: when the oldest operation presented decodes to i, the step is exec of i at the
state with that operation taken, and nothing else is added (20_memory.md R43, R44; log 1). -/
def Obligations.StepPerformsTheOldestOperation : Prop :=
  ∀ (s : State) (op : Operation) (rest : List Operation) (i : Instr),
    s.pending = op :: rest → decode s.cfg op = .ok i → step s = exec i { s with pending := rest }

/-- With nothing presented SEQ waits (00_scope.md R6, 70_reset_and_hazards.md R147; the waiting step is the model's, log 2). -/
def Obligations.NothingPresentedNothingChanges : Prop :=
  ∀ s : State, s.pending = [] → step s = .next s

/-- Every operation presented completes: no COMMAND and no TICK faults, is refused or hangs, and what remains presented
stays well formed (60_exceptions.md R130, 20_memory.md R44; the list of what is presented is the model's own field, log 1). -/
def Obligations.EveryOperationCompletes : Prop :=
  ∀ (s : State) (op : Operation) (rest : List Operation), s.PendingWellFormed → s.pending = op :: rest →
    ∃ t, step s = .next t ∧ t.pending = rest ∧ t.PendingWellFormed

/-- Every interleaving of the host's COMMANDs and the time base's TICKs is a run of the machine: it keeps each agent's own
order, and it performs the instructions the operations decode to one after another, each on the state the one before left
(20_memory.md R43, R44, R49; decisions D24 and D27, log 1, log 11). -/
def Obligations.EveryInterleavingRuns : Prop :=
  ∀ (s : State) (commands ticks ops : List Operation), Interleaves commands ticks ops →
    (∀ op ∈ commands, op.agent = .host) → (∀ op ∈ ticks, op.agent = .timeBase) →
    s.pending = ops → s.PendingWellFormed →
    ops.filter (fun op => op.agent = .host) = commands ∧
    ops.filter (fun op => op.agent = .timeBase) = ticks ∧
    ∃ (is : List Instr) (t : State),
      ops.map (decode s.cfg) = is.map .ok ∧
      Sys2Proof.core.run ops.length s = .next t ∧ perform is { s with pending := [] } = .next t

/-! ### Motion commands -/

/-- STOP (41_motion_commands.md R100; the frame is 00_scope.md R13, decision D26, log 24). -/
def Obligations.StopStopsAndClearsInit : Prop :=
  CodeDecodesTo 0x00 .stop ∧
  ∀ s : State, exec .stop s = .next { s with ms := .stopped, init := false, reply := some [] }

/-- INIT (41_motion_commands.md R101; the frame is 00_scope.md R13, decision D26, log 24). -/
def Obligations.InitIdlesAndSetsInit : Prop :=
  CodeDecodesTo 0x01 .init ∧
  ∀ s : State, exec .init s = .next { s with ms := .idle, init := true, reply := some [] }

/-- STEPFWD (41_motion_commands.md R102; the frame is 00_scope.md R13, decision D26, log 24). -/
def Obligations.StepForwardLoadsOneStep : Prop :=
  CodeDecodesTo 0x03 .stepfwd ∧
  ∀ s : State, exec .stepfwd s = .next { s with ms := .steppingForward, steps := 1, reply := some [] }

/-- STEPBWD (41_motion_commands.md R103; the frame is 00_scope.md R13, decision D26, log 24). -/
def Obligations.StepBackwardLoadsOneStep : Prop :=
  CodeDecodesTo 0x04 .stepbwd ∧
  ∀ s : State, exec .stepbwd s = .next { s with ms := .steppingBackward, steps := 1, reply := some [] }

/-- ROTFWD (41_motion_commands.md R104; the frame is 00_scope.md R13, decision D26, log 24). -/
def Obligations.RotateForwardLoadsFortyEight : Prop :=
  CodeDecodesTo 0x05 .rotfwd ∧
  ∀ s : State, exec .rotfwd s = .next { s with ms := .steppingForward, steps := 48, reply := some [] }

/-- ROTBWD (41_motion_commands.md R105; the frame is 00_scope.md R13, decision D26, log 24). -/
def Obligations.RotateBackwardLoadsFortyEight : Prop :=
  CodeDecodesTo 0x06 .rotbwd ∧
  ∀ s : State, exec .rotbwd s = .next { s with ms := .steppingBackward, steps := 48, reply := some [] }

/-- No COMMAND moves the motor: none writes a phase line, a position, ACC or PREV_MS, and each leaves a reply
(41_motion_commands.md R106, 60_exceptions.md R138, 10_state.md R24, R28, R29; the frame is 00_scope.md R13, decision D26, log 24). -/
def Obligations.CommandsMoveNothing : Prop :=
  ∀ (i : Instr) (s : State), i.isCommand = true →
    ∃ t, exec i s = .next t ∧
      t.phase = s.phase ∧ t.cur = s.cur ∧ t.last = s.last ∧ t.acc = s.acc ∧ t.prevMs = s.prevMs ∧
      t.cfg = s.cfg ∧ t.pending = s.pending ∧ ∃ bytes, t.reply = some bytes

/-- Step counts are overwritten and only the last stepping command before a TICK counts: any number of stepping commands
issued before another leave no trace (70_reset_and_hazards.md R155, R156, 41_motion_commands.md R106). -/
def Obligations.LastSteppingCommandWins : Prop :=
  ∀ (is : List Instr) (i : Instr) (s : State),
    (∀ j ∈ is, j ∈ [Instr.stepfwd, .stepbwd, .rotfwd, .rotbwd]) → i ∈ [Instr.stepfwd, .stepbwd, .rotfwd, .rotbwd] →
    perform (is ++ [i]) s = exec i s

/-- Repeating a motion command with no TICK between gives the same state as issuing it once (41_motion_commands.md R106). -/
def Obligations.RepeatedMotionCommandChangesNothing : Prop :=
  ∀ (i : Instr) (s : State), i ∈ [Instr.stop, .init, .stepfwd, .stepbwd, .rotfwd, .rotbwd] →
    perform [i, i] s = exec i s

/-! ### Speed commands -/

/-- SPEEDUP (42_speed_commands.md R110; the frame is 00_scope.md R13, decision D26, log 24). -/
def Obligations.SpeedUpClampsAt150 : Prop :=
  CodeDecodesTo 0x64 .speedup ∧
  ∀ s : State, exec .speedup s =
    .next { s with speed := BitVec.ofNat 8 (min (s.speed.toNat + 1) 150), reply := some [] }

/-- SPEEDDN (42_speed_commands.md R111; the frame is 00_scope.md R13, decision D26, log 24). -/
def Obligations.SpeedDownClampsAtOne : Prop :=
  CodeDecodesTo 0x65 .speeddn ∧
  ∀ s : State, exec .speeddn s =
    .next { s with speed := BitVec.ofNat 8 (max (s.speed.toNat - 1) 1), reply := some [] }

/-- n SPEEDUPs from a legal SPEED give min(SPEED + n, 150) and n SPEEDDNs give max(SPEED - n, 1), and nothing but SPEED and
the reply changes (42_speed_commands.md R112: 130 SPEEDUPs from 20 reach 150, 19 SPEEDDNs reach 1; that nothing else
changes is 00_scope.md R13, decision D26, log 24). -/
def Obligations.RepeatedSpeedCommandsClamp : Prop :=
  ∀ (n : Nat) (s : State), 1 ≤ s.speed.toNat → s.speed.toNat ≤ 150 →
    (∃ t, perform (List.replicate n .speedup) s = .next t ∧ t.speed.toNat = min (s.speed.toNat + n) 150 ∧
      { t with speed := s.speed, reply := s.reply } = s) ∧
    (∃ t, perform (List.replicate n .speeddn) s = .next t ∧ t.speed.toNat = max (s.speed.toNat - n) 1 ∧
      { t with speed := s.speed, reply := s.reply } = s)

/-- SPEEDUP then SPEEDDN is the identity for SPEED in 1..149, SPEEDDN then SPEEDUP for SPEED in 2..150
(42_speed_commands.md R112). -/
def Obligations.SpeedUpAndDownAreInverse : Prop :=
  ∀ s : State,
    (1 ≤ s.speed.toNat → s.speed.toNat ≤ 149 → perform [.speedup, .speeddn] s = .next { s with reply := some [] }) ∧
    (2 ≤ s.speed.toNat → s.speed.toNat ≤ 150 → perform [.speeddn, .speedup] s = .next { s with reply := some [] })

/-- Larger values mean faster stepping, in the form "never slower": a SPEEDUP never raises the threshold and a SPEEDDN never
lowers it (42_speed_commands.md R113; truncating division is decision D6, log 16). -/
def Obligations.FasterIsNeverSlower : Prop :=
  ∀ s : State, 1 ≤ s.speed.toNat → s.speed.toNat ≤ 150 →
    (∃ t, exec .speedup s = .next t ∧ threshold t.cfg t.speed ≤ threshold s.cfg s.speed) ∧
    (∃ t, exec .speeddn s = .next t ∧ threshold s.cfg s.speed ≤ threshold t.cfg t.speed)

/-! ### Read-back, boundary and unassigned commands -/

/-- SPEEDQ replies the hundreds, tens and units digit of SPEED, each + 48, and changes no register
(43_status_commands.md R115, R116). -/
def Obligations.SpeedQueryRepliesThreeDigits : Prop :=
  CodeDecodesTo 0xC9 .speedq ∧
  ∀ s : State, exec .speedq s = .next { s with
    reply := some [BitVec.ofNat 8 (48 + s.speed.toNat / 100), BitVec.ofNat 8 (48 + s.speed.toNat / 10 % 10),
      BitVec.ofNat 8 (48 + s.speed.toNat % 10)] }

/-- STEPSP's reply for every POW10: digit by digit the quotient by the power, then the rest, each + 48 mod 256; no register
is written, STEPS among them (43_status_commands.md R117, R118; the reduction mod 256 is decision D17, log 23). -/
def Obligations.StepsParamRepliesFiveDigits : Prop :=
  ∀ (s : State) (p : Param) (r4 r3 r2 r1 : Nat),
    r4 = p.toNat % s.cfg.pow10.p4 → r3 = r4 % s.cfg.pow10.p3 → r2 = r3 % s.cfg.pow10.p2 → r1 = r2 % s.cfg.pow10.p1 →
    exec (.stepsp p) s = .next { s with
      reply := some [BitVec.ofNat 8 (p.toNat / s.cfg.pow10.p4 + 48), BitVec.ofNat 8 (r4 / s.cfg.pow10.p3 + 48),
        BitVec.ofNat 8 (r3 / s.cfg.pow10.p2 + 48), BitVec.ofNat 8 (r2 / s.cfg.pow10.p1 + 48),
        BitVec.ofNat 8 (r1 + 48)] }

/-- With the default POW10 the reply is the zero-padded 5-digit decimal of the parameter (43_status_commands.md R121;
POW10(i) = 10^i is decision D17, log 5). -/
def Obligations.StepsParamIsZeroPaddedDecimal : Prop :=
  ∀ (s : State) (p : Param), s.cfg.pow10 = ⟨10, 100, 1000, 10000⟩ →
    ∃ d4 d3 d2 d1 d0 : Nat, d4 < 10 ∧ d3 < 10 ∧ d2 < 10 ∧ d1 < 10 ∧ d0 < 10 ∧
      p.toNat = 10000 * d4 + 1000 * d3 + 100 * d2 + 10 * d1 + d0 ∧
      exec (.stepsp p) s = .next { s with
        reply := some [BitVec.ofNat 8 (48 + d4), BitVec.ofNat 8 (48 + d3), BitVec.ofNat 8 (48 + d2),
          BitVec.ofNat 8 (48 + d1), BitVec.ofNat 8 (48 + d0)] }

/-- DATAOUT replies the fixed string, 1 to 255 bytes, and changes nothing (43_status_commands.md R119; the length is the
constraint of 00_scope.md R8 and 60_exceptions.md R133, decisions D18 and D19, log 10). -/
def Obligations.DataOutRepliesTheFixedString : Prop :=
  CodeDecodesTo 0xC8 .dataout ∧
  ∀ s : State, exec .dataout s = .next { s with reply := some s.cfg.dataOutString } ∧
    1 ≤ s.cfg.dataOutString.length ∧ s.cfg.dataOutString.length ≤ 255

/-- DATAOUT gives the same reply every time and changes no state, whatever instructions were performed before it
(43_status_commands.md R119). -/
def Obligations.DataOutRepliesTheSameAlways : Prop :=
  CodeDecodesTo 0xC8 .dataout ∧
  ∀ (is : List Instr) (s : State), ∃ t, perform is s = .next t ∧
    exec .dataout t = .next { t with reply := some s.cfg.dataOutString }

/-- NOP, every code not named: a zero-length reply and no register written (43_status_commands.md R120); that NOP keeps the
code it was decoded from is the model's choice (log 28). -/
def Obligations.UnassignedCodesAreNoOperation : Prop :=
  ∀ code : Byte, code ∉ [(0 : Byte), 1, 3, 4, 5, 6, 50, 100, 101, 200, 201] →
    CodeDecodesTo code (.nop code) ∧ ∀ s : State, exec (.nop code) s = .next { s with reply := some [] }

/-- What the host can read: the reply of a COMMAND depends on the configuration and SPEED alone, so two states that differ
only in hidden registers answer alike (10_state.md R33, 60_exceptions.md R142). -/
def Obligations.RepliesRevealOnlySpeed : Prop :=
  ∀ (i : Instr) (s t s' t' : State), i.isCommand = true → s.cfg = t.cfg → s.speed = t.speed →
    exec i s = .next s' → exec i t = .next t' → s'.reply = t'.reply

/-- The life of a reply: a TICK does not disturb it, and the next COMMAND puts its own, of at most 255 bytes, in its place,
whatever it was (70_reset_and_hazards.md R150; the 255 bytes are 20_memory.md R41's, for DATAOUT by decision D18, log 10). -/
def Obligations.ReplyLivesUntilTheNextCommand : Prop :=
  (∀ (e : Nat) (s : State), ∃ t, exec (.tick e) s = .next t ∧ t.reply = s.reply) ∧
  (∀ (i : Instr) (s : State), i.isCommand = true →
    ∃ (t : State) (bytes : List Byte), bytes.length ≤ 255 ∧ t.reply = some bytes ∧
      ∀ old : Option (List Byte), exec i { s with reply := old } = .next t)

/-! ### TICK -/

/-- A non-qualifying TICK only corrects CUR, records PREV_MS and accumulates, saturating or wrapping as configured
(40_tick.md R71 to R75; decisions D6, D7, D8, D10, log 16 to 18, 20). -/
def Obligations.GatedTickCorrectsAndAccumulates : Prop :=
  ∀ (s : State) (e acc : Nat), s.speed ≠ 0 →
    acc = (match s.cfg.accOverflow with
      | .saturate => min (s.acc + e) (2 ^ s.cfg.timerWidth - 1)
      | .wrap => (s.acc + e) % 2 ^ s.cfg.timerWidth) →
    acc < s.cfg.baseInterval / s.speed.toNat →
    exec (.tick e) s = .next { s with
      prevMs := s.ms
      acc := acc
      cur :=
        if s.ms = .steppingForward ∧ s.ms ≠ s.prevMs ∧ reversal s.cfg .forward s.cur s.last = true then s.cur + 1
        else if s.ms = .steppingBackward ∧ s.ms ≠ s.prevMs ∧ reversal s.cfg .backward s.cur s.last = true then s.cur - 1
        else s.cur }

/-- The Stopped action of a qualifying TICK (40_tick.md R78); the TICK also records PREV_MS and clears ACC (R72, R76;
decisions D6, D7, D8, D10, log 16 to 18, 20). -/
def Obligations.StoppedTickClearsLinesAndSteps : Prop :=
  ∀ (s : State) (e : Nat), s.ms = .stopped → s.Qualifies e →
    exec (.tick e) s = .next { s with prevMs := .stopped, acc := 0, phase := 0b0000, steps := 0, init := false }

/-- The Idle action of a qualifying TICK (40_tick.md R79): not yet initialized, exactly the lines of LAST and CUR are set and
INIT with them; initialized, nothing. The TICK also records PREV_MS and clears ACC (R72, R76; decisions D6, D7,
D8, D10, log 16 to 18, 20; that no other line is written is decision D13, log 21). -/
def Obligations.IdleTickEnergizesTwoLinesOnce : Prop :=
  ∀ (s : State) (e : Nat), s.ms = .idle → s.Qualifies e →
    (s.init = false → ∃ lines : Lines,
      exec (.tick e) s = .next { s with prevMs := .idle, acc := 0, init := true, phase := lines } ∧
      ∀ k : Pos, lines.getLsbD k.toNat = (decide (k = s.last ∨ k = s.cur) || s.phase.getLsbD k.toNat)) ∧
    (s.init = true → exec (.tick e) s = .next { s with prevMs := .idle, acc := 0 })

/-- The SteppingForward action of a qualifying TICK (40_tick.md R80), from the CUR that phase 1 leaves: with STEPS > 0 one
step, with STEPS = 0 Idle. The TICK also records PREV_MS, corrects CUR and clears ACC (R71, R72, R76; decisions
D6, D7, D8, D12, D14, log 16 to 18, 22). -/
def Obligations.ForwardTickStepsOrIdles : Prop :=
  ∀ (s : State) (e : Nat) (c : Pos), s.ms = .steppingForward → s.Qualifies e →
    c = (if MotorState.steppingForward ≠ s.prevMs ∧ reversal s.cfg .forward s.cur s.last = true then s.cur + 1 else s.cur) →
    (0 < s.steps.toNat → ∃ lines : Lines,
      exec (.tick e) s = .next { s with
        prevMs := .steppingForward, acc := 0, steps := s.steps - 1, last := c - 1, cur := c + 1, phase := lines } ∧
      ∀ k : Pos, lines.getLsbD k.toNat =
        (if k = c + 1 then true else if k = c - 1 then false else s.phase.getLsbD k.toNat)) ∧
    (s.steps.toNat = 0 →
      exec (.tick e) s = .next { s with prevMs := .steppingForward, acc := 0, cur := c, ms := .idle })

/-- The SteppingBackward action of a qualifying TICK (40_tick.md R81), symmetric to the forward one (the same decisions). -/
def Obligations.BackwardTickStepsOrIdles : Prop :=
  ∀ (s : State) (e : Nat) (c : Pos), s.ms = .steppingBackward → s.Qualifies e →
    c = (if MotorState.steppingBackward ≠ s.prevMs ∧ reversal s.cfg .backward s.cur s.last = true then s.cur - 1 else s.cur) →
    (0 < s.steps.toNat → ∃ lines : Lines,
      exec (.tick e) s = .next { s with
        prevMs := .steppingBackward, acc := 0, steps := s.steps - 1, last := c + 1, cur := c - 1, phase := lines } ∧
      ∀ k : Pos, lines.getLsbD k.toNat =
        (if k = c - 1 then true else if k = c + 1 then false else s.phase.getLsbD k.toNat)) ∧
    (s.steps.toNat = 0 →
      exec (.tick e) s = .next { s with prevMs := .steppingBackward, acc := 0, cur := c, ms := .idle })

/-- REV_SIGN is the sign of the unreduced difference CUR - LAST (10_state.md R30; decision D9, log 19). -/
def Obligations.RevSignIsTheSignOfTheDifference : Prop :=
  ∀ (c : Config) (cur last : Pos), c.reversal = .revSign →
    (reversal c .forward cur last = true ↔ (cur.toNat : Int) - (last.toNat : Int) < 0) ∧
    (reversal c .backward cur last = true ↔ (cur.toNat : Int) - (last.toNat : Int) > 0)

/-- REVERSAL is a parameter: every predicate on a direction and the two positions is one a configuration can have
(00_scope.md R8, 10_state.md R30; its form as data is the model's, log 14). -/
def Obligations.EveryReversalPredicateCanBeConfigured : Prop :=
  ∀ p : Direction → Pos → Pos → Bool, ∃ rule : ReversalRule, ∀ c : Config, c.reversal = rule →
    ∀ (d : Direction) (cur last : Pos), reversal c d cur last = p d cur last

/-- The complete table of motor-state transitions (40_tick.md R82; which TICK qualifies rests on decisions D6 and D7, log 16,
log 17). -/
def Obligations.MotorStateChangesOnlyAsTabled : Prop :=
  ∀ (i : Instr) (s : State), ∃ t, exec i s = .next t ∧ t.ms =
    (match i with
     | .stop => .stopped
     | .init => .idle
     | .stepfwd | .rotfwd => .steppingForward
     | .stepbwd | .rotbwd => .steppingBackward
     | .stepsp _ | .speedup | .speeddn | .dataout | .speedq | .nop _ => s.ms
     | .tick e =>
       if (s.ms = .steppingForward ∨ s.ms = .steppingBackward) ∧ s.steps.toNat = 0 ∧ s.Qualifies e then .idle else s.ms)

/-- At most one phase transition per TICK (40_tick.md R83): the lines stay, or one line is written low and one other high by
a step, or lines are only set (Idle, two of them; no other is written by decision D13, log 21), or all four are cleared (Stopped). -/
def Obligations.AtMostOneTransitionPerTick : Prop :=
  ∀ (s : State) (e : Nat), ∃ t, exec (.tick e) s = .next t ∧
    (t.phase = s.phase ∨
     (s.ms = .stopped ∧ t.phase = 0b0000) ∨
     (s.ms = .idle ∧ ∀ k : Pos, t.phase.getLsbD k.toNat = (decide (k = s.last ∨ k = s.cur) || s.phase.getLsbD k.toNat)) ∨
     ((s.ms = .steppingForward ∨ s.ms = .steppingBackward) ∧ t.steps.toNat + 1 = s.steps.toNat ∧
       ∃ low high : Pos, low ≠ high ∧ t.phase.getLsbD low.toNat = false ∧ t.phase.getLsbD high.toNat = true ∧
         ∀ k : Pos, k ≠ low → k ≠ high → t.phase.getLsbD k.toNat = s.phase.getLsbD k.toNat))

/-- After any step (CUR - LAST) mod 4 = 2, whichever the direction; a step is told by its decrement of STEPS
(40_tick.md R87; which TICK qualifies rests on decisions D6 and D7, log 16, 17). -/
def Obligations.StepLeavesPositionsTwoApart : Prop :=
  ∀ (s : State) (e : Nat), (s.ms = .steppingForward ∨ s.ms = .steppingBackward) → s.Qualifies e → 0 < s.steps.toNat →
    ∃ t, exec (.tick e) s = .next t ∧ t.steps.toNat + 1 = s.steps.toNat ∧
      ((t.cur.toNat : Int) - (t.last.toNat : Int)) % 4 = 2

/-- THR = 0 when BASE_INTERVAL < SPEED: every TICK qualifies, TICK 0 among them, and clears ACC (40_tick.md R84 (a); truncating
division is decision D6, log 16). -/
def Obligations.ZeroThresholdQualifiesEveryTick : Prop :=
  ∀ (s : State) (e : Nat), s.cfg.baseInterval < s.speed.toNat →
    s.Qualifies e ∧ ∃ t, exec (.tick e) s = .next t ∧ t.acc = 0

/-- With a saturating accumulator enough elapsed time always makes a TICK qualify, for every SPEED and in every legal state
(40_tick.md R84 (d), R76; saturation is decision D4, log 5; which TICK qualifies rests on decisions D6 and D7, log 16, 17). -/
def Obligations.EnoughElapsedTimeQualifies : Prop :=
  ∀ (s : State) (e : Nat), s.Legal → s.cfg.accOverflow = .saturate →
    s.cfg.baseInterval / s.speed.toNat ≤ s.acc + e →
    s.Qualifies e ∧ ∃ t, exec (.tick e) s = .next t ∧ t.acc = 0

/-- With a wrapping accumulator the time can be lost: past the top of the range ACC falls below THR and the TICK does not
qualify (40_tick.md R84 (e); which TICK qualifies rests on decisions D6 and D7, log 16, 17). -/
def Obligations.WrappedTimeIsLost : Prop :=
  ∀ (s : State) (e : Nat), s.Legal → s.cfg.accOverflow = .wrap → e < 2 ^ s.cfg.timerWidth →
    2 ^ s.cfg.timerWidth ≤ s.acc + e → s.acc + e - 2 ^ s.cfg.timerWidth < s.cfg.baseInterval / s.speed.toNat →
    ∃ t, exec (.tick e) s = .next t ∧ t.acc = s.acc + e - 2 ^ s.cfg.timerWidth ∧ t.phase = s.phase ∧ t.steps = s.steps

/-- TICK granularity: from ACC = 0, with THR > 0 and every TICK carrying the same ELAPSED = e > 0, the first TICK to qualify
is number ceil(THR / e); under the ones before it the lines, STEPS, MS, INIT and LAST stay (70_reset_and_hazards.md R161;
of CUR and PREV_MS, which the first may correct and record by 40_tick.md R75, R85 (a), it says nothing; saturating accumulator, decision
D4, log 5; the excess is discarded by decision D7, log 17; the division truncates by decision D6, log 16). -/
def Obligations.FirstQualifyingTickIsTheCeiling : Prop :=
  ∀ (s : State) (e k : Nat), s.speed ≠ 0 → s.acc = 0 → s.cfg.accOverflow = .saturate → 0 < e →
    0 < s.cfg.baseInterval / s.speed.toNat →
    k * e < s.cfg.baseInterval / s.speed.toNat → s.cfg.baseInterval / s.speed.toNat ≤ (k + 1) * e →
    ∃ t u, perform (List.replicate k (.tick e)) s = .next t ∧
      t.acc = k * e ∧ t.phase = s.phase ∧ t.steps = s.steps ∧ t.ms = s.ms ∧ t.init = s.init ∧ t.last = s.last ∧
      t.Qualifies e ∧ exec (.tick e) t = .next u ∧ u.acc = 0

/-- A stepping command takes its count of qualifying TICKs and one more: after n of them (n = 1 or 48) STEPS is 0 and MS is
still the stepping state, CUR has moved n times in its direction from where phase 1 of the first TICK left it, and the
trailing qualifying TICK sets Idle and nothing else (41_motion_commands.md R102 to R105, 70_reset_and_hazards.md R157,
90_conflicts.md C2, C3; the gate, ACC = 0 and PREV_MS
rest on decisions D6, D7 and D8, log 16, 17, 18). -/
def Obligations.SteppingCommandTakesItsCountOfTicks : Prop :=
  ∀ (s : State) (i : Instr) (d : Direction) (n : Nat) (elapsed : List Nat) (c : Pos),
    (i, d, n) ∈ [(Instr.stepfwd, Direction.forward, 1), (.stepbwd, .backward, 1), (.rotfwd, .forward, 48),
      (.rotbwd, .backward, 48)] →
    s.speed ≠ 0 → (s.cfg.accOverflow = .saturate ∨ s.acc = 0) →
    elapsed.length = n →
    (∀ e ∈ elapsed, s.cfg.baseInterval / s.speed.toNat ≤ e ∧ e < 2 ^ s.cfg.timerWidth) →
    c = (if d.motorState ≠ s.prevMs ∧ reversal s.cfg d s.cur s.last = true then d.ahead s.cur else s.cur) →
    ∃ t, perform (i :: elapsed.map .tick) s = .next t ∧
      t.steps = 0 ∧ t.ms = d.motorState ∧ t.prevMs = d.motorState ∧ t.acc = 0 ∧
      t.cur = (if n = 1 then d.ahead c else c) ∧ t.cur - t.last = 2 ∧
      t.speed = s.speed ∧ t.init = s.init ∧ t.cfg = s.cfg ∧
      ∀ e, s.cfg.baseInterval / s.speed.toNat ≤ e → e < 2 ^ s.cfg.timerWidth →
        exec (.tick e) t = .next { t with ms := .idle }

/-- STOP takes effect at the next qualifying TICK: a gated TICK leaves the lines and STEPS, a qualifying one clears them, and
a stepping command before it cancels the STOP, which then leaves only INIT cleared (70_reset_and_hazards.md R152,
90_conflicts.md C4; which TICK qualifies rests on decisions D6 and D7, log 16, 17). -/
def Obligations.StopActsAtTheNextQualifyingTick : Prop :=
  ∀ (s : State) (e : Nat),
    (¬ s.Qualifies e → ∃ t, perform [.stop, .tick e] s = .next t ∧
      t.phase = s.phase ∧ t.steps = s.steps ∧ t.ms = .stopped) ∧
    (s.Qualifies e → ∃ t, perform [.stop, .tick e] s = .next t ∧
      t.phase = 0b0000 ∧ t.steps = 0 ∧ t.ms = .stopped ∧ t.init = false) ∧
    (∀ i ∈ [Instr.stepfwd, .stepbwd, .rotfwd, .rotbwd], perform [.stop, i] s = exec i { s with init := false })

/-- INIT suppresses the holding energization: after STOP, a qualifying TICK and INIT, no TICK sets a line while the motor
stays Idle, however many there are (70_reset_and_hazards.md R151; which TICK qualifies rests on decisions D6 and D7, log 16, 17). -/
def Obligations.InitSuppressesTheHolding : Prop :=
  ∀ (s : State) (e : Nat) (elapsed : List Nat), s.Qualifies e →
    ∃ t, perform (.stop :: .tick e :: .init :: elapsed.map .tick) s = .next t ∧
      t.phase = 0b0000 ∧ t.ms = .idle ∧ t.init = true

/-- The first qualifying TICK after reset, with no COMMAND before it, performs the holding energization: PHASE = 0b0101 and
INIT (70_reset_and_hazards.md R149; it rests on the reset values of decisions D8 and D11, log 7; which TICK qualifies rests on decisions D6 and D7, log 16, 17). -/
def Obligations.FirstQualifyingTickAfterResetHolds : Prop :=
  ∀ (c : Config) (e : Nat), c.baseInterval / 20 ≤ accAdd c 0 e →
    exec (.tick e) (State.resetWith c) = .next { State.resetWith c with phase := 0b0101, init := true }

/-- The reversal correction goes by position, not by direction: after a step, entering the other direction is corrected only
if the forward step ended at CUR = 2 or 3, or the backward one at CUR = 0 or 1, and entering either direction after
Idle or Stopped is "corrected" in the other cases (70_reset_and_hazards.md R154, 40_tick.md R87; under REV_SIGN, decision D9, log 19;
the gate and PREV_MS rest on decisions D6, D7 and D8, log 16 to 18). -/
def Obligations.ReversalIsCorrectedByPosition : Prop :=
  ∀ (s : State) (e : Nat), s.cfg.reversal = .revSign → s.cur - s.last = 2 → ¬ s.Qualifies e →
    (s.prevMs = .steppingForward →
      ∃ t, perform [.stepbwd, .tick e] s = .next t ∧ t.cur = (if s.cur = 2 ∨ s.cur = 3 then s.cur - 1 else s.cur)) ∧
    (s.prevMs = .steppingBackward →
      ∃ t, perform [.stepfwd, .tick e] s = .next t ∧ t.cur = (if s.cur = 0 ∨ s.cur = 1 then s.cur + 1 else s.cur)) ∧
    (s.prevMs = .idle ∨ s.prevMs = .stopped →
      (∃ t, perform [.stepfwd, .tick e] s = .next t ∧ t.cur = (if s.cur = 0 ∨ s.cur = 1 then s.cur + 1 else s.cur)) ∧
      (∃ t, perform [.stepbwd, .tick e] s = .next t ∧ t.cur = (if s.cur = 2 ∨ s.cur = 3 then s.cur - 1 else s.cur)))

/-! ### State, reset and configuration -/

/-- The reset state (70_reset_and_hazards.md R146): the source's MS, CUR, LAST, SPEED; STEPS, INIT, ACC, PHASE by decision D11
and PREV_MS by decision D8 (log 7); the reset machine's parameters are the spec's defaults where it has them (log 5). -/
def Obligations.ResetLeavesTheTabledValues : Prop :=
  (∀ c : Config, State.resetWith c =
    { cfg := c, ms := .idle, cur := 2, last := 0, steps := 0, speed := 20, init := false, prevMs := .idle, acc := 0,
      phase := 0b0000, reply := none, pending := [] }) ∧
  (∃ c : Config, State.reset = State.resetWith c ∧ c.timerWidth = 16 ∧ c.accOverflow = .saturate ∧
    c.reversal = .revSign ∧ c.pow10 = ⟨10, 100, 1000, 10000⟩ ∧ c.cmdOffset = 1 ∧ c.paramOffset = 2)

/-- The reset state satisfies both invariants under every configuration (10_state.md R34, 40_tick.md R79; log 7). -/
def Obligations.ResetSatisfiesTheInvariants : Prop :=
  ∀ c : Config, (State.resetWith c).Legal ∧ (State.resetWith c).TwoLinesToHold

/-- Every step keeps SPEED in 1..150, STEPS in 0..48 and ACC within TIMER_WIDTH bits (10_state.md R34). -/
def Obligations.StepKeepsTheRegistersInRange : Prop :=
  ∀ s t : State, s.Legal → step s = .next t → t.Legal

/-- Every step keeps what makes the Idle energization set two lines: no run reaches Idle, not initialized, with CUR = LAST
(40_tick.md R79, R85 (e), R87; PREV_MS = MS rests on R72, decision D8, log 18, and that Idle keeps its positions
on R71, decision D10, log 20). -/
def Obligations.StepKeepsTwoLinesToHold : Prop :=
  ∀ s t : State, s.TwoLinesToHold → step s = .next t → t.TwoLinesToHold

/-- The configuration does not change during a run, however long (70_reset_and_hazards.md R148; it stands in State, log 4). -/
def Obligations.ConfigurationNeverChanges : Prop :=
  ∀ (n : Nat) (s t : State), Sys2Proof.core.run n s = .next t → t.cfg = s.cfg

/-- Each register is written only by the operations the state table names (10_state.md R20; the frame is
00_scope.md R13, decision D26, log 24). -/
def Obligations.RegistersHaveOnlyTheirWriters : Prop :=
  ∀ (i : Instr) (s : State), ∃ t, exec i s = .next t ∧
    (i ∉ [Instr.speedup, .speeddn] → t.speed = s.speed) ∧
    (i ∉ [Instr.stepfwd, .stepbwd, .rotfwd, .rotbwd] → i.isCommand = true → t.steps = s.steps) ∧
    (i ∉ [Instr.stop, .init] → i.isCommand = true → t.init = s.init) ∧
    (i ∉ [Instr.stop, .init, .stepfwd, .stepbwd, .rotfwd, .rotbwd] → i.isCommand = true → t.ms = s.ms) ∧
    (i.isCommand = true → t.cur = s.cur ∧ t.last = s.last ∧ t.prevMs = s.prevMs ∧ t.acc = s.acc ∧ t.phase = s.phase) ∧
    (i.isCommand = false → t.speed = s.speed ∧ t.reply = s.reply) ∧
    t.cfg = s.cfg ∧ t.pending = s.pending

/-- Power-up with parameters that break a constraint is refused as a whole, before any operation; with any others the
machine is in its reset state (60_exceptions.md R133, 70_reset_and_hazards.md R145; decision D19, log 10). -/
def Obligations.ImpossibleConfigurationsAreRefused : Prop :=
  ∀ p : Params,
    ((p.timerWidth = 0 ∨ p.baseInterval > 2 ^ p.timerWidth - 1 ∨
      p.pow10.p1 = 0 ∨ p.pow10.p2 = 0 ∨ p.pow10.p3 = 0 ∨ p.pow10.p4 = 0 ∨
      p.dataOutString = [] ∨ p.dataOutString.length > 255 ∨ p.cmdOffset > 7 ∨ p.paramOffset > 6 ∨
      p.cmdOffset = p.paramOffset ∨ p.cmdOffset = p.paramOffset + 1) →
      ∃ breaches, breaches ≠ [] ∧ boot p = .refused (.configuration breaches)) ∧
    ((p.timerWidth ≠ 0 ∧ p.baseInterval ≤ 2 ^ p.timerWidth - 1 ∧
      p.pow10.p1 ≠ 0 ∧ p.pow10.p2 ≠ 0 ∧ p.pow10.p3 ≠ 0 ∧ p.pow10.p4 ≠ 0 ∧
      p.dataOutString ≠ [] ∧ p.dataOutString.length ≤ 255 ∧ p.cmdOffset ≤ 7 ∧ p.paramOffset ≤ 6 ∧
      p.cmdOffset ≠ p.paramOffset ∧ p.cmdOffset ≠ p.paramOffset + 1) →
      ∃ c : Config, c.toParams = p ∧ boot p = .next (State.resetWith c))
end

