-- ==== Sys2Proof/Laws/Config.lean ====
section
/-! SUPPORT. What an admitted configuration guarantees, one fact each (00_scope.md R8). -/

namespace Sys2Proof.Config

theorem timerWidth_pos (c : Config) : 0 < c.timerWidth := by
  have h := (Params.breaches_eq_nil_iff c.toParams).mp c.admitted
  omega

theorem baseInterval_le (c : Config) : c.baseInterval ≤ 2 ^ c.timerWidth - 1 :=
  ((Params.breaches_eq_nil_iff c.toParams).mp c.admitted).2.1

theorem pow10_pos (c : Config) : 0 < c.pow10.p1 ∧ 0 < c.pow10.p2 ∧ 0 < c.pow10.p3 ∧ 0 < c.pow10.p4 := by
  have h := (Params.breaches_eq_nil_iff c.toParams).mp c.admitted
  omega

theorem dataOutString_length (c : Config) : 1 ≤ c.dataOutString.length ∧ c.dataOutString.length ≤ 255 := by
  have h := (Params.breaches_eq_nil_iff c.toParams).mp c.admitted
  omega

theorem cmdOffset_le (c : Config) : c.cmdOffset ≤ 7 := by
  have h := (Params.breaches_eq_nil_iff c.toParams).mp c.admitted
  omega

theorem paramOffset_le (c : Config) : c.paramOffset ≤ 6 := by
  have h := (Params.breaches_eq_nil_iff c.toParams).mp c.admitted
  omega

theorem offsets_distinct (c : Config) : c.cmdOffset ≠ c.paramOffset ∧ c.cmdOffset ≠ c.paramOffset + 1 := by
  have h := (Params.breaches_eq_nil_iff c.toParams).mp c.admitted
  omega

end Sys2Proof.Config
end

