-- ==== Sys2Proof/Laws/Decimal.lean ====
section
/-! SUPPORT. The inner loop of ENC5 computes quotient and rest (43_status_commands.md R117). -/

namespace Sys2Proof.Machine

/-- With enough fuel the loop subtracts as often as the power fits. -/
theorem digitLoop_eq {power : Nat} (hp : 0 < power) :
    ∀ {fuel r : Nat} (k : Nat), r ≤ fuel → digitLoop power fuel k r = (k + r / power, r % power)
  | 0, r, k, h => by
    obtain rfl : r = 0 := by omega
    simp [digitLoop]
  | fuel + 1, r, k, h => by
    rw [digitLoop]
    split
    case isTrue hle =>
      rw [digitLoop_eq hp (k + 1) (by omega), Nat.div_eq_sub_div hp hle, Nat.mod_eq_sub_mod hle]
      simp only [Prod.mk.injEq, and_true]
      omega
    case isFalse hlt =>
      have hlt : r < power := by omega
      rw [Nat.div_eq_of_lt hlt, Nat.mod_eq_of_lt hlt, Nat.add_zero]

theorem digitAt_eq {power : Nat} (hp : 0 < power) (r : Nat) : digitAt power r = (r / power, r % power) := by
  rw [digitAt, digitLoop_eq hp 0 le_rfl, Nat.zero_add]

/-- ENC5 digit by digit, for every POW10 without a zero (43_status_commands.md R117). -/
theorem enc5_eq {p : Pow10} (h : 0 < p.p1 ∧ 0 < p.p2 ∧ 0 < p.p3 ∧ 0 < p.p4) (v : Param) :
    enc5 p v =
      [digitByte (v.toNat / p.p4), digitByte (v.toNat % p.p4 / p.p3), digitByte (v.toNat % p.p4 % p.p3 / p.p2),
        digitByte (v.toNat % p.p4 % p.p3 % p.p2 / p.p1), digitByte (v.toNat % p.p4 % p.p3 % p.p2 % p.p1)] := by
  obtain ⟨h1, h2, h3, h4⟩ := h
  simp only [enc5, digitAt_eq h1, digitAt_eq h2, digitAt_eq h3, digitAt_eq h4]

end Sys2Proof.Machine
end

