-- ==== Sys2Proof/Laws/Decode.lean ====
section
/-! SUPPORT. What the decoder and the encoder read and write of a descriptor (30_encoding.md R56, R58, R65). -/

namespace Sys2Proof.Machine

@[simp] theorem makeDesc_length (c : Config) (code : Byte) (p : Param) : (makeDesc c code p).length = 8 := by
  simp [makeDesc]

/-- What makeDesc gives is a descriptor of SEQ. -/
theorem makeDesc_wf (c : Config) (code : Byte) (p : Param) : (Operation.command (makeDesc c code p)).wf c = true :=
  decide_eq_true (makeDesc_length c code p)

theorem descCode_makeDesc (c : Config) (code : Byte) (p : Param) : descCode c (makeDesc c code p) = code := by
  have h := c.cmdOffset_le
  have h8 : c.cmdOffset < 8 := by omega
  simp [descCode, descByte, makeDesc, h8]

theorem assembleParam_split (p : Param) : assembleParam (paramHi p) (paramLo p) = p := by
  apply BitVec.eq_of_getLsbD_eq
  intro i hi
  simp only [assembleParam, paramHi, paramLo, BitVec.getLsbD_append, BitVec.getLsbD_extractLsb']
  split
  · simp; omega
  · have : 8 + (i - 8) = i := by omega
    have h2 : i - 8 < 8 := by omega
    simp [this, h2]

theorem descParam_makeDesc (c : Config) (code : Byte) (p : Param) : descParam c (makeDesc c code p) = p := by
  have h := c.paramOffset_le
  have hd := c.offsets_distinct
  have h8 : c.paramOffset < 8 := by omega
  have h9 : c.paramOffset + 1 < 8 := by omega
  have e : descParam c (makeDesc c code p) = assembleParam (paramHi p) (paramLo p) := by
    simp [descParam, descByte, makeDesc, h8, h9, hd.1.symm, hd.2.symm]
  rw [e, assembleParam_split]

/-- The decoder on a descriptor of eight bytes. -/
theorem decode_command {desc : List Byte} (c : Config) (h : desc.length = 8) :
    decode c (.command desc) = .ok (commandOf (descCode c desc) (descParam c desc)) := by
  simp [decode, h]

/-- Only code 50 reads the parameter (30_encoding.md R58). -/
theorem commandOf_of_ne {code : Byte} (h : code ≠ 0x32) (p q : Param) :
    commandOf code p = commandOf code q ∧ ∀ r, commandOf code p ≠ .stepsp r := by
  unfold commandOf
  split <;> simp_all

theorem decode_makeDesc (c : Config) (code : Byte) (p : Param) :
    decode c (.command (makeDesc c code p)) = .ok (commandOf code p) := by
  rw [decode_command c (makeDesc_length c code p), descCode_makeDesc, descParam_makeDesc]

/-- The decoder on an ELAPSED of TIMER_WIDTH bits. -/
theorem decode_tick {c : Config} {e : Nat} (h : e < 2 ^ c.timerWidth) : decode c (.tick e) = .ok (.tick e) := by
  simp [decode, h]

/-- What the decoder accepts is well formed as presented. -/
theorem decode_ok_wf {c : Config} {op : Operation} {i : Instr} (h : decode c op = .ok i) : op.wf c = true := by
  cases op <;> simp only [decode] at h <;> split at h <;> simp_all [Operation.wf]

/-- Everything well formed is accepted. -/
theorem decode_of_wf {c : Config} {op : Operation} (h : op.wf c = true) : ∃ i, decode c op = .ok i := by
  cases op <;> simp_all [decode, Operation.wf]

end Sys2Proof.Machine
end

