-- ==== Sys2Proof/Laws/State.lean ====
section
/-! SUPPORT. One lemma per field per register write: what the write sets and what it leaves (00_scope.md R12, R13). -/

namespace Sys2Proof.Machine.State

variable (s : State)


/-! ### setMs -/

@[simp] theorem setMs_cfg (v : MotorState) : (s.setMs v).cfg = s.cfg := rfl
@[simp] theorem setMs_ms (v : MotorState) : (s.setMs v).ms = v := rfl
@[simp] theorem setMs_cur (v : MotorState) : (s.setMs v).cur = s.cur := rfl
@[simp] theorem setMs_last (v : MotorState) : (s.setMs v).last = s.last := rfl
@[simp] theorem setMs_steps (v : MotorState) : (s.setMs v).steps = s.steps := rfl
@[simp] theorem setMs_speed (v : MotorState) : (s.setMs v).speed = s.speed := rfl
@[simp] theorem setMs_init (v : MotorState) : (s.setMs v).init = s.init := rfl
@[simp] theorem setMs_prevMs (v : MotorState) : (s.setMs v).prevMs = s.prevMs := rfl
@[simp] theorem setMs_acc (v : MotorState) : (s.setMs v).acc = s.acc := rfl
@[simp] theorem setMs_phase (v : MotorState) : (s.setMs v).phase = s.phase := rfl
@[simp] theorem setMs_reply (v : MotorState) : (s.setMs v).reply = s.reply := rfl
@[simp] theorem setMs_pending (v : MotorState) : (s.setMs v).pending = s.pending := rfl

/-! ### setCur -/

@[simp] theorem setCur_cfg (v : Pos) : (s.setCur v).cfg = s.cfg := rfl
@[simp] theorem setCur_ms (v : Pos) : (s.setCur v).ms = s.ms := rfl
@[simp] theorem setCur_cur (v : Pos) : (s.setCur v).cur = v := rfl
@[simp] theorem setCur_last (v : Pos) : (s.setCur v).last = s.last := rfl
@[simp] theorem setCur_steps (v : Pos) : (s.setCur v).steps = s.steps := rfl
@[simp] theorem setCur_speed (v : Pos) : (s.setCur v).speed = s.speed := rfl
@[simp] theorem setCur_init (v : Pos) : (s.setCur v).init = s.init := rfl
@[simp] theorem setCur_prevMs (v : Pos) : (s.setCur v).prevMs = s.prevMs := rfl
@[simp] theorem setCur_acc (v : Pos) : (s.setCur v).acc = s.acc := rfl
@[simp] theorem setCur_phase (v : Pos) : (s.setCur v).phase = s.phase := rfl
@[simp] theorem setCur_reply (v : Pos) : (s.setCur v).reply = s.reply := rfl
@[simp] theorem setCur_pending (v : Pos) : (s.setCur v).pending = s.pending := rfl

/-! ### setLast -/

@[simp] theorem setLast_cfg (v : Pos) : (s.setLast v).cfg = s.cfg := rfl
@[simp] theorem setLast_ms (v : Pos) : (s.setLast v).ms = s.ms := rfl
@[simp] theorem setLast_cur (v : Pos) : (s.setLast v).cur = s.cur := rfl
@[simp] theorem setLast_last (v : Pos) : (s.setLast v).last = v := rfl
@[simp] theorem setLast_steps (v : Pos) : (s.setLast v).steps = s.steps := rfl
@[simp] theorem setLast_speed (v : Pos) : (s.setLast v).speed = s.speed := rfl
@[simp] theorem setLast_init (v : Pos) : (s.setLast v).init = s.init := rfl
@[simp] theorem setLast_prevMs (v : Pos) : (s.setLast v).prevMs = s.prevMs := rfl
@[simp] theorem setLast_acc (v : Pos) : (s.setLast v).acc = s.acc := rfl
@[simp] theorem setLast_phase (v : Pos) : (s.setLast v).phase = s.phase := rfl
@[simp] theorem setLast_reply (v : Pos) : (s.setLast v).reply = s.reply := rfl
@[simp] theorem setLast_pending (v : Pos) : (s.setLast v).pending = s.pending := rfl

/-! ### setSteps -/

@[simp] theorem setSteps_cfg (v : Byte) : (s.setSteps v).cfg = s.cfg := rfl
@[simp] theorem setSteps_ms (v : Byte) : (s.setSteps v).ms = s.ms := rfl
@[simp] theorem setSteps_cur (v : Byte) : (s.setSteps v).cur = s.cur := rfl
@[simp] theorem setSteps_last (v : Byte) : (s.setSteps v).last = s.last := rfl
@[simp] theorem setSteps_steps (v : Byte) : (s.setSteps v).steps = v := rfl
@[simp] theorem setSteps_speed (v : Byte) : (s.setSteps v).speed = s.speed := rfl
@[simp] theorem setSteps_init (v : Byte) : (s.setSteps v).init = s.init := rfl
@[simp] theorem setSteps_prevMs (v : Byte) : (s.setSteps v).prevMs = s.prevMs := rfl
@[simp] theorem setSteps_acc (v : Byte) : (s.setSteps v).acc = s.acc := rfl
@[simp] theorem setSteps_phase (v : Byte) : (s.setSteps v).phase = s.phase := rfl
@[simp] theorem setSteps_reply (v : Byte) : (s.setSteps v).reply = s.reply := rfl
@[simp] theorem setSteps_pending (v : Byte) : (s.setSteps v).pending = s.pending := rfl

/-! ### setSpeed -/

@[simp] theorem setSpeed_cfg (v : Byte) : (s.setSpeed v).cfg = s.cfg := rfl
@[simp] theorem setSpeed_ms (v : Byte) : (s.setSpeed v).ms = s.ms := rfl
@[simp] theorem setSpeed_cur (v : Byte) : (s.setSpeed v).cur = s.cur := rfl
@[simp] theorem setSpeed_last (v : Byte) : (s.setSpeed v).last = s.last := rfl
@[simp] theorem setSpeed_steps (v : Byte) : (s.setSpeed v).steps = s.steps := rfl
@[simp] theorem setSpeed_speed (v : Byte) : (s.setSpeed v).speed = v := rfl
@[simp] theorem setSpeed_init (v : Byte) : (s.setSpeed v).init = s.init := rfl
@[simp] theorem setSpeed_prevMs (v : Byte) : (s.setSpeed v).prevMs = s.prevMs := rfl
@[simp] theorem setSpeed_acc (v : Byte) : (s.setSpeed v).acc = s.acc := rfl
@[simp] theorem setSpeed_phase (v : Byte) : (s.setSpeed v).phase = s.phase := rfl
@[simp] theorem setSpeed_reply (v : Byte) : (s.setSpeed v).reply = s.reply := rfl
@[simp] theorem setSpeed_pending (v : Byte) : (s.setSpeed v).pending = s.pending := rfl

/-! ### setInit -/

@[simp] theorem setInit_cfg (v : Bool) : (s.setInit v).cfg = s.cfg := rfl
@[simp] theorem setInit_ms (v : Bool) : (s.setInit v).ms = s.ms := rfl
@[simp] theorem setInit_cur (v : Bool) : (s.setInit v).cur = s.cur := rfl
@[simp] theorem setInit_last (v : Bool) : (s.setInit v).last = s.last := rfl
@[simp] theorem setInit_steps (v : Bool) : (s.setInit v).steps = s.steps := rfl
@[simp] theorem setInit_speed (v : Bool) : (s.setInit v).speed = s.speed := rfl
@[simp] theorem setInit_init (v : Bool) : (s.setInit v).init = v := rfl
@[simp] theorem setInit_prevMs (v : Bool) : (s.setInit v).prevMs = s.prevMs := rfl
@[simp] theorem setInit_acc (v : Bool) : (s.setInit v).acc = s.acc := rfl
@[simp] theorem setInit_phase (v : Bool) : (s.setInit v).phase = s.phase := rfl
@[simp] theorem setInit_reply (v : Bool) : (s.setInit v).reply = s.reply := rfl
@[simp] theorem setInit_pending (v : Bool) : (s.setInit v).pending = s.pending := rfl

/-! ### setPrevMs -/

@[simp] theorem setPrevMs_cfg (v : MotorState) : (s.setPrevMs v).cfg = s.cfg := rfl
@[simp] theorem setPrevMs_ms (v : MotorState) : (s.setPrevMs v).ms = s.ms := rfl
@[simp] theorem setPrevMs_cur (v : MotorState) : (s.setPrevMs v).cur = s.cur := rfl
@[simp] theorem setPrevMs_last (v : MotorState) : (s.setPrevMs v).last = s.last := rfl
@[simp] theorem setPrevMs_steps (v : MotorState) : (s.setPrevMs v).steps = s.steps := rfl
@[simp] theorem setPrevMs_speed (v : MotorState) : (s.setPrevMs v).speed = s.speed := rfl
@[simp] theorem setPrevMs_init (v : MotorState) : (s.setPrevMs v).init = s.init := rfl
@[simp] theorem setPrevMs_prevMs (v : MotorState) : (s.setPrevMs v).prevMs = v := rfl
@[simp] theorem setPrevMs_acc (v : MotorState) : (s.setPrevMs v).acc = s.acc := rfl
@[simp] theorem setPrevMs_phase (v : MotorState) : (s.setPrevMs v).phase = s.phase := rfl
@[simp] theorem setPrevMs_reply (v : MotorState) : (s.setPrevMs v).reply = s.reply := rfl
@[simp] theorem setPrevMs_pending (v : MotorState) : (s.setPrevMs v).pending = s.pending := rfl

/-! ### setAcc -/

@[simp] theorem setAcc_cfg (v : Nat) : (s.setAcc v).cfg = s.cfg := rfl
@[simp] theorem setAcc_ms (v : Nat) : (s.setAcc v).ms = s.ms := rfl
@[simp] theorem setAcc_cur (v : Nat) : (s.setAcc v).cur = s.cur := rfl
@[simp] theorem setAcc_last (v : Nat) : (s.setAcc v).last = s.last := rfl
@[simp] theorem setAcc_steps (v : Nat) : (s.setAcc v).steps = s.steps := rfl
@[simp] theorem setAcc_speed (v : Nat) : (s.setAcc v).speed = s.speed := rfl
@[simp] theorem setAcc_init (v : Nat) : (s.setAcc v).init = s.init := rfl
@[simp] theorem setAcc_prevMs (v : Nat) : (s.setAcc v).prevMs = s.prevMs := rfl
@[simp] theorem setAcc_acc (v : Nat) : (s.setAcc v).acc = v := rfl
@[simp] theorem setAcc_phase (v : Nat) : (s.setAcc v).phase = s.phase := rfl
@[simp] theorem setAcc_reply (v : Nat) : (s.setAcc v).reply = s.reply := rfl
@[simp] theorem setAcc_pending (v : Nat) : (s.setAcc v).pending = s.pending := rfl

/-! ### setPhase -/

@[simp] theorem setPhase_cfg (v : Lines) : (s.setPhase v).cfg = s.cfg := rfl
@[simp] theorem setPhase_ms (v : Lines) : (s.setPhase v).ms = s.ms := rfl
@[simp] theorem setPhase_cur (v : Lines) : (s.setPhase v).cur = s.cur := rfl
@[simp] theorem setPhase_last (v : Lines) : (s.setPhase v).last = s.last := rfl
@[simp] theorem setPhase_steps (v : Lines) : (s.setPhase v).steps = s.steps := rfl
@[simp] theorem setPhase_speed (v : Lines) : (s.setPhase v).speed = s.speed := rfl
@[simp] theorem setPhase_init (v : Lines) : (s.setPhase v).init = s.init := rfl
@[simp] theorem setPhase_prevMs (v : Lines) : (s.setPhase v).prevMs = s.prevMs := rfl
@[simp] theorem setPhase_acc (v : Lines) : (s.setPhase v).acc = s.acc := rfl
@[simp] theorem setPhase_phase (v : Lines) : (s.setPhase v).phase = v := rfl
@[simp] theorem setPhase_reply (v : Lines) : (s.setPhase v).reply = s.reply := rfl
@[simp] theorem setPhase_pending (v : Lines) : (s.setPhase v).pending = s.pending := rfl

/-! ### setReply -/

@[simp] theorem setReply_cfg (v : Option (List Byte)) : (s.setReply v).cfg = s.cfg := rfl
@[simp] theorem setReply_ms (v : Option (List Byte)) : (s.setReply v).ms = s.ms := rfl
@[simp] theorem setReply_cur (v : Option (List Byte)) : (s.setReply v).cur = s.cur := rfl
@[simp] theorem setReply_last (v : Option (List Byte)) : (s.setReply v).last = s.last := rfl
@[simp] theorem setReply_steps (v : Option (List Byte)) : (s.setReply v).steps = s.steps := rfl
@[simp] theorem setReply_speed (v : Option (List Byte)) : (s.setReply v).speed = s.speed := rfl
@[simp] theorem setReply_init (v : Option (List Byte)) : (s.setReply v).init = s.init := rfl
@[simp] theorem setReply_prevMs (v : Option (List Byte)) : (s.setReply v).prevMs = s.prevMs := rfl
@[simp] theorem setReply_acc (v : Option (List Byte)) : (s.setReply v).acc = s.acc := rfl
@[simp] theorem setReply_phase (v : Option (List Byte)) : (s.setReply v).phase = s.phase := rfl
@[simp] theorem setReply_reply (v : Option (List Byte)) : (s.setReply v).reply = v := rfl
@[simp] theorem setReply_pending (v : Option (List Byte)) : (s.setReply v).pending = s.pending := rfl

/-! ### setPending -/

@[simp] theorem setPending_cfg (v : List Operation) : (s.setPending v).cfg = s.cfg := rfl
@[simp] theorem setPending_ms (v : List Operation) : (s.setPending v).ms = s.ms := rfl
@[simp] theorem setPending_cur (v : List Operation) : (s.setPending v).cur = s.cur := rfl
@[simp] theorem setPending_last (v : List Operation) : (s.setPending v).last = s.last := rfl
@[simp] theorem setPending_steps (v : List Operation) : (s.setPending v).steps = s.steps := rfl
@[simp] theorem setPending_speed (v : List Operation) : (s.setPending v).speed = s.speed := rfl
@[simp] theorem setPending_init (v : List Operation) : (s.setPending v).init = s.init := rfl
@[simp] theorem setPending_prevMs (v : List Operation) : (s.setPending v).prevMs = s.prevMs := rfl
@[simp] theorem setPending_acc (v : List Operation) : (s.setPending v).acc = s.acc := rfl
@[simp] theorem setPending_phase (v : List Operation) : (s.setPending v).phase = s.phase := rfl
@[simp] theorem setPending_reply (v : List Operation) : (s.setPending v).reply = s.reply := rfl
@[simp] theorem setPending_pending (v : List Operation) : (s.setPending v).pending = v := rfl

end Sys2Proof.Machine.State
end

