-- ==== Sys2Proof/Laws/Ops.lean ====
section
/-! SUPPORT. One law per shared operation of Machine/Ops.lean and Machine/Flags.lean: all that it does. -/

namespace Sys2Proof.Machine

/-! ### Replies and the flag -/

theorem State.replyWith_eq (s : State) (b : List Byte) : s.replyWith b = { s with reply := some b } := rfl

theorem State.replyEmpty_eq (s : State) : s.replyEmpty = { s with reply := some [] } := rfl

theorem State.markInitialized_eq (s : State) : s.markInitialized = { s with init := true } := rfl

theorem State.markUninitialized_eq (s : State) : s.markUninitialized = { s with init := false } := rfl

/-! ### Motor states and directions -/

theorem MotorState.ofBits_bits (m : MotorState) : MotorState.ofBits m.bits = m := by
  cases m <;> rfl

theorem MotorState.bits_ofBits (b : BitVec 2) : (MotorState.ofBits b).bits = b := by
  revert b; decide

@[simp] theorem Direction.direction_motorState (d : Direction) : d.motorState.direction = some d := by
  cases d <;> rfl

theorem MotorState.direction_eq_some {m : MotorState} {d : Direction} (h : m.direction = some d) : m = d.motorState := by
  cases m <;> cases d <;> simp_all [MotorState.direction, Direction.motorState]

/-! ### Positions -/

theorem Direction.ahead_sub_behind (d : Direction) (p : Pos) : d.ahead p - d.behind p = 2 := by
  cases d <;> (revert p; decide)

theorem Direction.ahead_ne_behind (d : Direction) (p : Pos) : d.ahead p ≠ d.behind p := by
  cases d <;> (revert p; decide)

/-! ### Lines: a write changes the level of its own line only -/

theorem lineLevel_energize (l : Lines) (i j : Pos) :
    lineLevel (energize l i) j = (decide (j = i) || lineLevel l j) := by
  revert l i j; decide

theorem lineLevel_deenergize (l : Lines) (i j : Pos) :
    lineLevel (deenergize l i) j = (!decide (j = i) && lineLevel l j) := by
  revert l i j; decide

theorem lineLevel_ext {l m : Lines} (h : ∀ i, lineLevel l i = lineLevel m i) : l = m := by
  revert l m; decide

/-! ### The accumulator and the threshold -/

theorem accAdd_le (c : Config) (a e : Nat) : accAdd c a e ≤ 2 ^ c.timerWidth - 1 := by
  unfold accAdd accMax
  have := Nat.mod_lt (a + e) (Nat.two_pow_pos c.timerWidth)
  cases c.accOverflow <;> simp only <;> omega

/-- Below the top of the range both kinds of accumulator just add. -/
theorem accAdd_of_lt {c : Config} {a e : Nat} (h : a + e < 2 ^ c.timerWidth) : accAdd c a e = a + e := by
  unfold accAdd accMax
  have := Nat.mod_eq_of_lt h
  cases c.accOverflow <;> simp only <;> omega

theorem threshold_of_ne_zero (c : Config) {v : Byte} (h : v ≠ 0) : threshold c v = c.baseInterval / v.toNat :=
  if_neg h

theorem threshold_le_accMax (c : Config) {v : Byte} (h : v ≠ 0) : threshold c v ≤ 2 ^ c.timerWidth - 1 := by
  rw [threshold_of_ne_zero c h]
  exact (Nat.div_le_self _ _).trans c.baseInterval_le

/-! ### The clamped speed -/

theorem speedRaised_toNat (v : Byte) : (speedRaised v).toNat = min (v.toNat + 1) 150 := by
  simp only [speedRaised, speedMax, BitVec.toNat_ofNat]
  omega

theorem speedLowered_toNat (v : Byte) : (speedLowered v).toNat = max (v.toNat - 1) 1 := by
  have := v.isLt
  simp only [speedLowered, speedMin, BitVec.toNat_ofNat]
  omega

/-! ### Reversal -/

theorem reversal_revSign {c : Config} (h : c.reversal = .revSign) (d : Direction) (cur last : Pos) :
    reversal c d cur last = revSign d cur last := by
  simp [reversal, h]

/-! ### Presented operations and power-up -/

theorem State.takePending_eq_none {s : State} : s.takePending = none ↔ s.pending = [] := by
  cases h : s.pending <;> simp [State.takePending, h]

theorem State.takePending_cons {s : State} {op : Operation} {rest : List Operation} (h : s.pending = op :: rest) :
    s.takePending = some (op, s.setPending rest) := by
  simp [State.takePending, h]

theorem boot_of_admitted {p : Params} (h : p.breaches = []) : boot p = .next (State.resetWith ⟨p, h⟩) := by
  simp [boot, h]

theorem boot_of_breach {p : Params} (h : p.breaches ≠ []) : boot p = .refused (.configuration p.breaches) := by
  simp [boot, h]

end Sys2Proof.Machine
end

