-- ==== Sys2Proof/Laws/PerInstr.lean ====
section
/-! SUPPORT. Statements about every instruction as syntax, one lemma per constructor. -/

namespace Sys2Proof.Laws.EncodeWellFormed

/-- What encoding a well-formed instruction gives is an operation of SEQ: a descriptor of eight bytes (30_encoding.md R56)
or an ELAPSED of TIMER_WIDTH bits (R62). -/
def Statement (i : Instr) : Prop := ∀ c : Config, i.wf c = true → (encode c i).wf c = true

theorem stop : Statement .stop := fun c _ => Machine.makeDesc_wf c 0x00 0
theorem init : Statement .init := fun c _ => Machine.makeDesc_wf c 0x01 0
theorem stepfwd : Statement .stepfwd := fun c _ => Machine.makeDesc_wf c 0x03 0
theorem stepbwd : Statement .stepbwd := fun c _ => Machine.makeDesc_wf c 0x04 0
theorem rotfwd : Statement .rotfwd := fun c _ => Machine.makeDesc_wf c 0x05 0
theorem rotbwd : Statement .rotbwd := fun c _ => Machine.makeDesc_wf c 0x06 0
theorem stepsp (param : Param) : Statement (.stepsp param) := fun c _ => Machine.makeDesc_wf c 0x32 param
theorem speedup : Statement .speedup := fun c _ => Machine.makeDesc_wf c 0x64 0
theorem speeddn : Statement .speeddn := fun c _ => Machine.makeDesc_wf c 0x65 0
theorem dataout : Statement .dataout := fun c _ => Machine.makeDesc_wf c 0xC8 0
theorem speedq : Statement .speedq := fun c _ => Machine.makeDesc_wf c 0xC9 0
theorem nop (code : Byte) : Statement (.nop code) := fun c _ => Machine.makeDesc_wf c code 0
theorem tick (elapsed : Nat) : Statement (.tick elapsed) := fun _ h => h

end Sys2Proof.Laws.EncodeWellFormed
end

