-- ==== Sys2Proof/Laws/Tick.lean ====
section
/-! SUPPORT. What each part of a TICK does, field by field (40_tick.md R71 to R81). -/

namespace Sys2Proof.Machine

/-! ### Phase 1 -/

/-- Phase 1 writes CUR and PREV_MS only (R71, R72); where MS equals PREV_MS it writes nothing. -/
theorem correctReversal_eq (s : State) :
    correctReversal s = { s with cur := if s.ms = s.prevMs then s.cur else correctedCur s, prevMs := s.ms } := by
  unfold correctReversal
  split
  case isTrue h => cases s; simp_all
  case isFalse h => rfl

/-- Stopped and Idle imply no direction: CUR stays (R71). -/
theorem correctedCur_of_not_stepping {s : State} (h : s.ms.direction = none) : correctedCur s = s.cur := by
  simp [correctedCur, h]

theorem correctedCur_of_stepping {s : State} {d : Direction} (h : s.ms.direction = some d) :
    correctedCur s = if reversal s.cfg d s.cur s.last then d.ahead s.cur else s.cur := by
  simp [correctedCur, h]

/-! ### Phases 1 and 2 -/

/-- All that a non-qualifying TICK does (R75). -/
theorem gateTick_eq (e : Nat) (s : State) :
    gateTick e s =
      { s with
        cur := if s.ms = s.prevMs then s.cur else correctedCur s
        prevMs := s.ms
        acc := accAdd s.cfg s.acc e } := by
  simp only [gateTick, accumulate, correctReversal_eq, State.setAcc]

/-- The gate compares the accumulated time with the threshold of the SPEED and configuration it started with (R74). -/
theorem gatePasses_gateTick (e : Nat) (s : State) :
    gatePasses (gateTick e s) = decide (threshold s.cfg s.speed ≤ accAdd s.cfg s.acc e) := by
  rw [gateTick_eq]; rfl

/-! ### Phase 3 -/

theorem stoppedAction_eq (s : State) : stoppedAction s = { s with phase := 0b0000, steps := 0, init := false } := rfl

theorem idleAction_of_init {s : State} (h : s.init = true) : idleAction s = s := by
  simp [idleAction, h]

theorem idleAction_of_not_init {s : State} (h : s.init = false) :
    idleAction s = { s with phase := energize (energize s.phase s.last) s.cur, init := true } := by
  simp only [idleAction, h, Bool.false_eq_true, ↓reduceIte]; rfl

theorem takeStep_eq (d : Direction) (s : State) :
    takeStep d s =
      { s with
        steps := s.steps - 1
        last := d.behind s.cur
        cur := d.ahead s.cur
        phase := energize (deenergize s.phase (d.behind s.cur)) (d.ahead s.cur) } := rfl

theorem steppingAction_of_zero (d : Direction) {s : State} (h : s.steps = 0) :
    steppingAction d s = { s with ms := .idle } :=
  if_pos h

theorem steppingAction_of_pos (d : Direction) {s : State} (h : s.steps ≠ 0) : steppingAction d s = takeStep d s :=
  if_neg h

/-! ### The TICK as a whole -/

theorem tickState_gated {e : Nat} {s : State} (h : accAdd s.cfg s.acc e < threshold s.cfg s.speed) :
    tickState e s = gateTick e s := by
  rw [tickState, gatePasses_gateTick]; simp [h]

theorem tickState_qualifying {e : Nat} {s : State} (h : threshold s.cfg s.speed ≤ accAdd s.cfg s.acc e) :
    tickState e s = qualifyTick (gateTick e s) := by
  rw [tickState, gatePasses_gateTick]; simp [h]

/-- The two ways a TICK ends (R74, R75, R76). -/
theorem tickState_cases (e : Nat) (s : State) :
    (accAdd s.cfg s.acc e < threshold s.cfg s.speed ∧ tickState e s = gateTick e s) ∨
    (threshold s.cfg s.speed ≤ accAdd s.cfg s.acc e ∧ tickState e s = qualifyTick (gateTick e s)) := by
  rcases Nat.lt_or_ge (accAdd s.cfg s.acc e) (threshold s.cfg s.speed) with h | h
  · exact .inl ⟨h, tickState_gated h⟩
  · exact .inr ⟨h, tickState_qualifying h⟩

/-- The action of a directed state after ACC is cleared (R77). -/
theorem qualifyTick_of_stepping {s : State} {d : Direction} (h : s.ms.direction = some d) :
    qualifyTick s = steppingAction d (s.setAcc 0) := by
  cases d <;> cases hm : s.ms <;> simp_all [MotorState.direction, qualifyTick, stateAction]

theorem qualifyTick_of_stopped {s : State} (h : s.ms = .stopped) :
    qualifyTick s = { s with acc := 0, phase := 0b0000, steps := 0, init := false } := by
  simp only [qualifyTick, stateAction, State.setAcc_ms, h, stoppedAction_eq]; rfl

theorem qualifyTick_of_idle {s : State} (h : s.ms = .idle) : qualifyTick s = idleAction (s.setAcc 0) := by
  simp only [qualifyTick, stateAction, State.setAcc_ms, h]

/-! ### What a TICK can do, said once -/

/-- CUR after phase 1 (R71). -/
def gateCur (s : State) : Pos := if s.ms = s.prevMs then s.cur else correctedCur s

theorem gateCur_of_not_stepping {s : State} (h : s.ms.direction = none) : gateCur s = s.cur := by
  simp [gateCur, correctedCur_of_not_stepping h]

theorem gateCur_of_same {s : State} (h : s.ms = s.prevMs) : gateCur s = s.cur :=
  if_pos h

theorem gateCur_of_stepping {s : State} {d : Direction} (h : s.ms.direction = some d) :
    gateCur s = if s.ms ≠ s.prevMs ∧ reversal s.cfg d s.cur s.last = true then d.ahead s.cur else s.cur := by
  by_cases hp : s.ms = s.prevMs <;> simp [gateCur, hp, correctedCur_of_stepping h]

/-- The six ways a TICK ends, each with the whole state it leaves (R75, R78 to R81). -/
theorem tickState_forms (e : Nat) (s : State) :
    (accAdd s.cfg s.acc e < threshold s.cfg s.speed ∧
      tickState e s = { s with cur := gateCur s, prevMs := s.ms, acc := accAdd s.cfg s.acc e }) ∨
    threshold s.cfg s.speed ≤ accAdd s.cfg s.acc e ∧
      ((s.ms = .stopped ∧
          tickState e s = { s with prevMs := s.ms, acc := 0, phase := 0b0000, steps := 0, init := false }) ∨
       (s.ms = .idle ∧ s.init = true ∧ tickState e s = { s with prevMs := s.ms, acc := 0 }) ∨
       (s.ms = .idle ∧ s.init = false ∧
          tickState e s =
            { s with prevMs := s.ms, acc := 0, init := true, phase := energize (energize s.phase s.last) s.cur }) ∨
       (∃ d : Direction, s.ms = d.motorState ∧ s.steps = 0 ∧
          tickState e s = { s with cur := gateCur s, prevMs := s.ms, acc := 0, ms := .idle }) ∨
       (∃ d : Direction, s.ms = d.motorState ∧ s.steps ≠ 0 ∧
          tickState e s =
            { s with
              prevMs := s.ms
              acc := 0
              steps := s.steps - 1
              last := d.behind (gateCur s)
              cur := d.ahead (gateCur s)
              phase := energize (deenergize s.phase (d.behind (gateCur s))) (d.ahead (gateCur s)) })) := by
  rcases tickState_cases e s with ⟨hq, h⟩ | ⟨hq, h⟩
  · exact .inl ⟨hq, by rw [h, gateTick_eq]; rfl⟩
  · refine .inr ⟨hq, ?_⟩
    rw [h]
    have hg : (gateTick e s).ms = s.ms := by rw [gateTick_eq]
    have stepping : ∀ d : Direction, s.ms = d.motorState → qualifyTick (gateTick e s) =
        steppingAction d { s with cur := gateCur s, prevMs := s.ms, acc := 0 } := by
      intro d hd
      rw [qualifyTick_of_stepping (d := d) (by rw [hg, hd, Direction.direction_motorState]), gateTick_eq]
      rfl
    have moving : ∀ d : Direction, s.ms = d.motorState →
        (∃ d : Direction, s.ms = d.motorState ∧ s.steps = 0 ∧
          qualifyTick (gateTick e s) = { s with cur := gateCur s, prevMs := s.ms, acc := 0, ms := .idle }) ∨
        (∃ d : Direction, s.ms = d.motorState ∧ s.steps ≠ 0 ∧
          qualifyTick (gateTick e s) =
            { s with
              prevMs := s.ms
              acc := 0
              steps := s.steps - 1
              last := d.behind (gateCur s)
              cur := d.ahead (gateCur s)
              phase := energize (deenergize s.phase (d.behind (gateCur s))) (d.ahead (gateCur s)) }) := by
      intro d hd
      by_cases hz : s.steps = 0
      · exact .inl ⟨d, hd, hz, by rw [stepping d hd]; exact steppingAction_of_zero d hz⟩
      · exact .inr ⟨d, hd, hz, by rw [stepping d hd]; exact steppingAction_of_pos d hz⟩
    cases hm : s.ms with
    | stopped =>
      refine .inl ⟨rfl, ?_⟩
      rw [qualifyTick_of_stopped (by rw [hg, hm]), gateTick_eq, ← gateCur,
        gateCur_of_not_stepping (by rw [hm]; rfl), hm]
    | idle =>
      have hc : gateTick e s = { s with prevMs := .idle, acc := accAdd s.cfg s.acc e } := by
        rw [gateTick_eq, ← gateCur, gateCur_of_not_stepping (by rw [hm]; rfl), hm]
      right
      cases hi : s.init with
      | true =>
        refine .inl ⟨rfl, rfl, ?_⟩
        rw [qualifyTick_of_idle (by rw [hg, hm]), hc, idleAction_of_init (by exact hi)]
        simp [State.setAcc, hm, hi]
      | false =>
        refine .inr (.inl ⟨rfl, rfl, ?_⟩)
        rw [qualifyTick_of_idle (by rw [hg, hm]), hc, idleAction_of_not_init (by exact hi)]
        simp [State.setAcc, hm]
    | steppingForward =>
      rw [hm] at moving
      exact .inr (.inr (.inr (moving .forward rfl)))
    | steppingBackward =>
      rw [hm] at moving
      exact .inr (.inr (.inr (moving .backward rfl)))

/-- What no TICK writes (10_state.md R20, 20_memory.md R41). -/
theorem tickState_frame (e : Nat) (s : State) :
    (tickState e s).cfg = s.cfg ∧ (tickState e s).speed = s.speed ∧ (tickState e s).reply = s.reply ∧
      (tickState e s).pending = s.pending := by
  rcases tickState_forms e s with
    ⟨_, h⟩ | ⟨_, ⟨_, h⟩ | ⟨_, _, h⟩ | ⟨_, _, h⟩ | ⟨_, _, _, h⟩ | ⟨_, _, _, h⟩⟩ <;> rw [h] <;> exact ⟨rfl, rfl, rfl, rfl⟩

/-- What is presented has no part in a TICK (20_memory.md R44). -/
theorem tickState_setPending (e : Nat) (s : State) (p : List Operation) :
    tickState e (s.setPending p) = (tickState e s).setPending p := by
  have hg : gateTick e (s.setPending p) = (gateTick e s).setPending p := by
    simp only [gateTick_eq]; rfl
  have hq : ∀ g : State, qualifyTick (g.setPending p) = (qualifyTick g).setPending p := by
    intro g
    have hs : ∀ d, steppingAction d ((g.setPending p).setAcc 0) = (steppingAction d (g.setAcc 0)).setPending p := by
      intro d
      by_cases hz : g.steps = 0
      · rw [steppingAction_of_zero d (by exact hz), steppingAction_of_zero d (by exact hz)]; rfl
      · rw [steppingAction_of_pos d (by exact hz), steppingAction_of_pos d (by exact hz)]; rfl
    cases hm : g.ms <;> simp only [qualifyTick, stateAction, State.setAcc_ms, State.setPending_ms, hm, hs]
    · rfl
    · cases hi : g.init
      · rw [idleAction_of_not_init (by exact hi), idleAction_of_not_init (by exact hi)]; rfl
      · rw [idleAction_of_init (by exact hi), idleAction_of_init (by exact hi)]; rfl
  rw [tickState, tickState, hg, hq]
  show (if gatePasses (gateTick e s) then _ else _) = _
  split <;> rfl

end Sys2Proof.Machine
end

