-- ==== Sys2Proof/Laws/Step.lean ====
section
/-! SUPPORT. What exec and step can do, said once. -/

namespace Sys2Proof.Machine

/-- Every instruction completes in every state (60_exceptions.md R130, R134). -/
theorem exec_completes (i : Instr) (s : State) : ∃ t, exec i s = .next t := by
  cases i <;> exact ⟨_, rfl⟩

/-- No operation writes the configuration (70_reset_and_hazards.md R148) or what is presented. -/
theorem exec_frame {i : Instr} {s t : State} (h : exec i s = .next t) : t.cfg = s.cfg ∧ t.pending = s.pending := by
  cases i
  case tick e => cases h; exact ⟨(tickState_frame e s).1, (tickState_frame e s).2.2.2⟩
  all_goals cases h; exact ⟨rfl, rfl⟩

/-- What is presented has no part in an operation (20_memory.md R44). -/
theorem exec_setPending {i : Instr} {s t : State} (h : exec i s = .next t) (p : List Operation) :
    exec i (s.setPending p) = .next (t.setPending p) := by
  cases i
  case tick e => cases h; exact congrArg _ (tickState_setPending e s p)
  all_goals cases h; rfl

/-- The three ways a step goes: nothing is presented, the oldest operation presented is performed, or what is presented is
none (20_memory.md R44, 30_encoding.md R61). -/
theorem step_cases (s : State) :
    (s.pending = [] ∧ step s = .next s) ∨
    (∃ op rest i, s.pending = op :: rest ∧ decode s.cfg op = .ok i ∧ step s = exec i (s.setPending rest)) ∨
    (∃ op rest m, s.pending = op :: rest ∧ decode s.cfg op = .error m ∧ step s = .refused (.malformed m)) := by
  cases hp : s.pending with
  | nil => exact .inl ⟨rfl, by simp [step, State.takePending, hp]⟩
  | cons op rest =>
    right
    cases hd : decode s.cfg op with
    | ok i => exact .inl ⟨op, rest, i, rfl, hd, by simp only [step, State.takePending, hp, hd]⟩
    | error m => exact .inr ⟨op, rest, m, rfl, hd, by simp only [step, State.takePending, hp, hd]⟩

/-- The inversion of step: it answers a next state only by waiting or by performing the oldest operation. -/
theorem step_next {s t : State} (h : step s = .next t) :
    (s.pending = [] ∧ t = s) ∨
    (∃ op rest i, s.pending = op :: rest ∧ decode s.cfg op = .ok i ∧ exec i (s.setPending rest) = .next t) := by
  rcases step_cases s with ⟨hp, hs⟩ | ⟨op, rest, i, hp, hd, hs⟩ | ⟨op, rest, m, hp, hd, hs⟩
  · left; rw [hs] at h; cases h; exact ⟨hp, rfl⟩
  · right; rw [hs] at h; exact ⟨op, rest, i, hp, hd, h⟩
  · rw [hs] at h; cases h

/-- A run of one more step (60_exceptions.md R140). -/
theorem core_run_succ {s t : State} (h : step s = .next t) (n : Nat) :
    Sys2Proof.core.run (n + 1) s = Sys2Proof.core.run n t := by
  have hs : Sys2Proof.core.step s = .next t := h
  simp only [Host.Core.run, hs]

/-- Performing one instruction and then others. -/
theorem perform_cons {i : Instr} {s t : State} (h : exec i s = .next t) (is : List Instr) :
    perform (i :: is) s = perform is t := by
  simp only [perform, h]

/-- Performing never stops. -/
theorem perform_completes (is : List Instr) : ∀ s, ∃ t, perform is s = .next t := by
  induction is with
  | nil => exact fun s => ⟨s, rfl⟩
  | cons i is ih =>
    intro s
    obtain ⟨t, ht⟩ := exec_completes i s
    rw [perform_cons ht]
    exact ih t

/-- No instruction changes the configuration or what is presented, so no list of them does. -/
theorem perform_frame (is : List Instr) : ∀ {s t : State}, perform is s = .next t → t.cfg = s.cfg ∧ t.pending = s.pending := by
  induction is with
  | nil => rintro s _ ⟨⟩; exact ⟨rfl, rfl⟩
  | cons i is ih =>
    intro s t h
    obtain ⟨u, hu⟩ := exec_completes i s
    rw [perform_cons hu] at h
    rw [(ih h).1, (ih h).2]
    exact exec_frame hu

/-- Performing two sequences one after the other (20_memory.md R44). -/
theorem perform_append (is js : List Instr) {s t : State} (h : perform is s = .next t) :
    perform (is ++ js) s = perform js t := by
  induction is generalizing s with
  | nil => cases h; rfl
  | cons i is ih =>
    obtain ⟨u, hu⟩ := exec_completes i s
    rw [perform_cons hu] at h
    rw [List.cons_append, perform_cons hu]
    exact ih h

end Sys2Proof.Machine
end

