-- ==== Sys2Proof/Tests/Slice0.lean ====
section
/-! SUPPORT. The model's own tests and the witnesses of the obligations' hypotheses. Every expected value is one of
spec/95_test_vectors.md or of a rule's own table; the vector is named beside each test. -/

namespace Sys2Proof.Tests

open Sys2Proof Sys2Proof.Machine

/-- The outcome is a next state with this property. -/
def shows (o : Host.Outcome State Fault Refusal) (p : State → Bool) : Bool :=
  match o with
  | .next t => p t
  | .fault _ => false
  | .refused _ => false

/-- S0, the reset state under EX (95_test_vectors.md, conventions). -/
def s0 : State := State.resetWith Config.ex

/-- A state under EX at SPEED 20 and ACC 0. -/
def st (ms prevMs : MotorState) (cur last : Pos) (steps : Byte) (init : Bool) (phase : Lines) : State :=
  { s0 with ms := ms, prevMs := prevMs, cur := cur, last := last, steps := steps, init := init, phase := phase }

/-- EX with BASE_INTERVAL = 65535 and ACC_OVERFLOW = wrap (vector G8), a one-byte DATAOUT_STRING and other offsets. -/
def wrapping : Config where
  baseInterval := 65535
  timerWidth := 16
  accOverflow := .wrap
  reversal := .pairs [(2, 0)] []
  pow10 := ⟨10, 100, 10000, 100000000⟩
  dataOutString := [0x53]
  cmdOffset := 4
  paramOffset := 6
  admitted := by decide

/-! ### Well-formedness: an ill-formed term for each check -/

theorem test_nop_with_assigned_code_is_ill_formed : (Instr.nop 100).wf Config.ex = false := by decide
theorem test_nop_with_unassigned_code_is_well_formed : (Instr.nop 2).wf Config.ex = true := by decide
theorem test_tick_too_wide_is_ill_formed : (Instr.tick 65536).wf Config.ex = false := by decide
theorem test_short_descriptor_is_ill_formed : (Operation.command [0, 0, 0, 0, 0, 0, 0]).wf Config.ex = false := by decide
theorem test_elapsed_too_wide_is_ill_formed : (Operation.tick 65536).wf Config.ex = false := by decide
theorem test_zero_width_is_a_breach :
    { Config.ex.toParams with timerWidth := 0, baseInterval := 0, dataOutString := [0x41] }.breaches = [.timerWidthZero] := by
  decide

/-! ### Decoding, one word per constructor (30_encoding.md R65; sections 2.7, 2.8) -/

theorem test_decode_stop : decode Config.ex (.command [0x00, 0x00, 0x00, 0x00, 0x00, 0x00, 0x00, 0x00]) = .ok .stop := by decide
theorem test_decode_init : decode Config.ex (.command [0x00, 0x01, 0x00, 0x00, 0x00, 0x00, 0x00, 0x00]) = .ok .init := by decide
theorem test_decode_stepfwd : decode Config.ex (.command [0x00, 0x03, 0xFF, 0xFF, 0xFF, 0xFF, 0xFF, 0xFF]) = .ok .stepfwd := by decide -- Y11
theorem test_decode_stepbwd : decode Config.ex (.command [0x00, 0x04, 0x00, 0x00, 0x00, 0x00, 0x00, 0x00]) = .ok .stepbwd := by decide
theorem test_decode_rotfwd : decode Config.ex (.command [0x00, 0x05, 0x00, 0x00, 0x00, 0x00, 0x00, 0x00]) = .ok .rotfwd := by decide
theorem test_decode_rotbwd : decode Config.ex (.command [0x00, 0x06, 0x00, 0x00, 0x00, 0x00, 0x00, 0x00]) = .ok .rotbwd := by decide
theorem test_decode_stepsp : decode Config.ex (.command [0xAA, 0x32, 0x01, 0x00, 0xBB, 0xCC, 0xDD, 0xEE]) = .ok (.stepsp 256) := by decide -- X26
theorem test_decode_speedup : decode Config.ex (.command [0x00, 0x64, 0x00, 0x00, 0x00, 0x00, 0x00, 0x00]) = .ok .speedup := by decide
theorem test_decode_speeddn : decode Config.ex (.command [0x00, 0x65, 0x00, 0x00, 0x00, 0x00, 0x00, 0x00]) = .ok .speeddn := by decide
theorem test_decode_dataout : decode Config.ex (.command [0x00, 0xC8, 0x00, 0x00, 0x00, 0x00, 0x00, 0x00]) = .ok .dataout := by decide
theorem test_decode_speedq : decode Config.ex (.command [0x00, 0xC9, 0x00, 0x00, 0x00, 0x00, 0x00, 0x00]) = .ok .speedq := by decide
theorem test_decode_nop : decode Config.ex (.command [0x00, 0xCA, 0x00, 0x00, 0x00, 0x00, 0x00, 0x00]) = .ok (.nop 202) := by decide -- Y8
theorem test_decode_tick : decode Config.ex (.tick 50) = .ok (.tick 50) := by decide
theorem test_decode_other_offsets : decode wrapping (.command [0, 0, 0, 0, 0x32, 0, 0x30, 0x39]) = .ok (.stepsp 12345) := by decide -- R56
theorem test_encode_stepsp : encode Config.ex (.stepsp 10) = .command [0x00, 0x32, 0x00, 0x0A, 0x00, 0x00, 0x00, 0x00] := by decide

/-- spec/opcode_table.json: match of each CMD row, and a code of each range of NOP. -/
theorem test_table_words :
    [0, 1, 3, 4, 5, 6, 50, 100, 101, 200, 201, 2, 7, 51, 102, 255].map (decodeTableWord 8) =
      [some .stop, some .init, some .stepfwd, some .stepbwd, some .rotfwd, some .rotbwd, some (.stepsp 0), some .speedup,
        some .speeddn, some .dataout, some .speedq, some (.nop 2), some (.nop 7), some (.nop 51), some (.nop 102),
        some (.nop 255)] := by decide

/-- The very next step performs the word presented, from reset as it stands. -/
theorem test_fetch_word_runs_from_reset :
    shows (step (State.reset.withFetchWord 8 3)) (fun t => t.ms = .steppingForward ∧ t.steps = 1 ∧ t.pending = []) = true := by
  decide

/-! ### Instructions -/

/-- Program P5, line 4. -/
theorem test_stop : shows (exec .stop (st .steppingForward .steppingForward 3 1 0 true 0b1101))
    (fun t => t.ms = .stopped ∧ t.init = false ∧ t.steps = 0 ∧ t.phase = 0b1101 ∧ t.reply = some []) = true := by decide

/-- Program P6, line 4: STEPS 46 stays. -/
theorem test_init : shows (exec .init (st .steppingForward .steppingForward 0 2 46 false 0b1001))
    (fun t => t.ms = .idle ∧ t.init = true ∧ t.steps = 46 ∧ t.prevMs = .steppingForward ∧ t.phase = 0b1001) = true := by decide

/-- Vector M7: the count is overwritten. -/
theorem test_stepfwd : shows (exec .stepfwd (st .steppingBackward .steppingBackward 0 2 47 false 0b0001))
    (fun t => t.ms = .steppingForward ∧ t.steps = 1 ∧ t.prevMs = .steppingBackward) = true := by decide

/-- Vector M4. -/
theorem test_stepbwd : shows (exec .stepbwd s0) (fun t => t.ms = .steppingBackward ∧ t.steps = 1) = true := by decide

/-- Program P3, line 2. -/
theorem test_rotfwd : shows (exec .rotfwd s0) (fun t => t.ms = .steppingForward ∧ t.steps = 48) = true := by decide

/-- Program P3, line 4. -/
theorem test_rotbwd : shows (exec .rotbwd (st .steppingForward .steppingForward 3 1 47 true 0b1101))
    (fun t => t.ms = .steppingBackward ∧ t.steps = 48 ∧ t.cur = 3) = true := by decide

/-- Vector X25. -/
theorem test_stepsp : shows (exec (.stepsp 12345) s0)
    (fun t => t.reply = some [0x31, 0x32, 0x33, 0x34, 0x35] ∧ t.steps = 0) = true := by decide

/-- Vector X31, a POW10 other than the default. -/
theorem test_stepsp_other_powers : shows (exec (.stepsp 12345) (State.resetWith wrapping))
    (fun t => t.reply = some [0x30, 0x31, 0x47, 0x34, 0x35]) = true := by decide

/-- Vectors V2 and V3. -/
theorem test_speedup : shows (perform [.speedup, .speedup] { s0 with speed := 149 }) (fun t => t.speed = 150) = true := by decide

/-- Vectors V5 and V6. -/
theorem test_speeddn : shows (perform [.speeddn, .speeddn] { s0 with speed := 2 }) (fun t => t.speed = 1) = true := by decide

/-- Vector X29. -/
theorem test_dataout : shows (exec .dataout (State.resetWith wrapping)) (fun t => t.reply = some [0x53]) = true := by decide

/-- Example E2. -/
theorem test_speedq : shows (exec .speedq { s0 with speed := 7 }) (fun t => t.reply = some [0x30, 0x30, 0x37]) = true := by decide

/-- Program P7, line 8. -/
theorem test_nop : shows (exec (.nop 2) s0) (fun t => t.reply = some [] ∧ t.speed = 20) = true := by decide

/-- Program P3, line 5: a corrected reversal and a step in one TICK. -/
theorem test_tick_corrects_and_steps : shows (exec (.tick 50) (st .steppingBackward .steppingForward 3 1 48 true 0b1101))
    (fun t => t.cur = 1 ∧ t.last = 3 ∧ t.steps = 47 ∧ t.phase = 0b0111 ∧ t.prevMs = .steppingBackward ∧ t.acc = 0) = true := by decide

/-- Program P7, line 6: the Idle action sets two lines and leaves the others. -/
theorem test_tick_holds : shows (exec (.tick 50) (st .idle .steppingForward 3 1 0 false 0b1101))
    (fun t => t.phase = 0b1111 ∧ t.init = true ∧ t.prevMs = .idle) = true := by decide

/-! ### Shared operations -/

/-- The table of section 2.1: the pairs (CUR, LAST) at which REV_SIGN holds for SteppingForward and for SteppingBackward. -/
theorem test_rev_sign_table :
    (∀ p ∈ ([(0, 1), (0, 2), (0, 3), (1, 2), (1, 3), (2, 3)] : List (Pos × Pos)), revSign .forward p.1 p.2 = true ∧ revSign .backward p.1 p.2 = false) ∧
    (∀ p ∈ ([(1, 0), (2, 0), (2, 1), (3, 0), (3, 1), (3, 2)] : List (Pos × Pos)), revSign .forward p.1 p.2 = false ∧ revSign .backward p.1 p.2 = true) ∧
    (∀ p ∈ ([(0, 0), (1, 1), (2, 2), (3, 3)] : List (Pos × Pos)), revSign .forward p.1 p.2 = false ∧ revSign .backward p.1 p.2 = false) := by decide

/-- Vectors G7 (saturate) and G8 (wrap). -/
theorem test_acc_add : accAdd Config.ex 65000 1000 = 65535 ∧ accAdd wrapping 65000 1000 = 464 := by decide

/-- The table of thresholds under EX in section 2.2. -/
theorem test_thresholds : [1, 2, 3, 7, 19, 20, 21, 50, 100, 125, 126, 142, 143, 149, 150].map (threshold Config.ex) =
    [1000, 500, 333, 142, 52, 50, 47, 20, 10, 8, 7, 7, 6, 6, 6] := by decide

/-- Vectors X1, X7, X9. -/
theorem test_enc3 : [0, 100, 255].map enc3 = [[0x30, 0x30, 0x30], [0x31, 0x30, 0x30], [0x32, 0x35, 0x35]] := by decide

/-- Vectors X12, X18, X21. -/
theorem test_enc5 : [9, 9999, 65535].map (enc5 Config.powersOfTen) =
    [[0x30, 0x30, 0x30, 0x30, 0x39], [0x30, 0x39, 0x39, 0x39, 0x39], [0x36, 0x35, 0x35, 0x33, 0x35]] := by decide

/-- The columns of section 2.4, W1 to W8: the lines after a step from all low and from all high. -/
theorem test_step_lines :
    ([0, 1, 2, 3] : List Pos).map (fun c => (takeStep .forward (st .steppingForward .steppingForward c (c + 2) 5 true 0b0000)).phase) = [0b0010, 0b0100, 0b1000, 0b0001] ∧
    ([0, 1, 2, 3] : List Pos).map (fun c => (takeStep .forward (st .steppingForward .steppingForward c (c + 2) 5 true 0b1111)).phase) = [0b0111, 0b1110, 0b1101, 0b1011] ∧
    ([0, 1, 2, 3] : List Pos).map (fun c => (takeStep .backward (st .steppingBackward .steppingBackward c (c + 2) 5 true 0b0000)).phase) = [0b1000, 0b0001, 0b0010, 0b0100] ∧
    ([0, 1, 2, 3] : List Pos).map (fun c => (takeStep .backward (st .steppingBackward .steppingBackward c (c + 2) 5 true 0b1111)).phase) = [0b1101, 0b1011, 0b0111, 0b1110] := by decide

/-- The program notation (30_encoding.md R64): a REPEAT is the lines written so often. -/
theorem test_program_operations : programOperations Config.ex [.times 2 [.cmd .speedup, .tick 5], .raw 0x02] =
    [.command [0, 0x64, 0, 0, 0, 0, 0, 0], .tick 5, .command [0, 0x64, 0, 0, 0, 0, 0, 0], .tick 5,
      .command [0, 0x02, 0, 0, 0, 0, 0, 0]] := by decide

/-- What a run shows (60_exceptions.md R140), on program P7's last two lines. -/
theorem test_observation :
    (match observe [.speedq, .tick 10, .nop 2] s0 with
      | .next o => decide (o.replies = [[0x30, 0x32, 0x30], []] ∧ o.lines = [0, 0, 0])
      | .fault _ => false
      | .refused _ => false) = true := by decide

/-! ### Witnesses: concrete values that meet each obligation's hypotheses together -/

theorem witness_DecodeOfEncodeIsTheInstruction :
    (Instr.nop 255).wf wrapping = true ∧ (Instr.tick 65535).wf wrapping = true ∧ (Instr.stepsp 65535).wf wrapping = true := by
  decide

theorem witness_CodeAloneSelectsTheCommand :
    [0xAA, 0x32, 0x01, 0x02, 0xBB, 0xCC, 0xDD, (0xEE : Byte)].length = 8 ∧
    [0xAA, 0x32, 0x01, 0x02, 0xBB, 0xCC, 0xDD, (0xEE : Byte)].getD Config.ex.cmdOffset 0 = 0x32 ∧
    [0xAA, 0x32, 0x01, 0x02, 0xBB, 0xCC, 0xDD, (0xEE : Byte)].getD Config.ex.paramOffset 0 = 0x01 ∧
    [0xAA, 0x32, 0x01, 0x02, 0xBB, 0xCC, 0xDD, (0xEE : Byte)].getD (Config.ex.paramOffset + 1) 0 = 0x02 := by decide

theorem witness_OnlyCode50ReadsTheParameter :
    (([0xAA, 0x32, 0xFF, 0xFF, 0, 0, 0, 0] : List Byte).length = 8 ∧
      ([0xAA, 0x32, 0xFF, 0xFF, 0, 0, 0, 0] : List Byte).getD Config.ex.cmdOffset 0 = 0x32) ∧
    (([0xAA, 0x33, 0xFF, 0xFF, 0, 0, 0, 0] : List Byte).length = 8 ∧
      ([0xAA, 0x33, 0xFF, 0xFF, 0, 0, 0, 0] : List Byte).getD Config.ex.cmdOffset 0 ≠ 0x32 ∧
      ([0xBB, 0x33, 0, 0, 0, 0, 0, 1] : List Byte).length = 8 ∧
      ([0xBB, 0x33, 0, 0, 0, 0, 0, 1] : List Byte).getD Config.ex.cmdOffset 0 =
        ([0xAA, 0x33, 0xFF, 0xFF, 0, 0, 0, 0] : List Byte).getD Config.ex.cmdOffset 0) := by decide

theorem witness_WhatIsNoOperationIsRefused :
    (([0, 3, 0, 0, 0, 0, 0] : List Byte).length ≠ 8 ∧ (s0.presentFirst (.command [0, 3, 0, 0, 0, 0, 0])).pending = [.command [0, 3, 0, 0, 0, 0, 0]]) ∧
    (2 ^ s0.cfg.timerWidth ≤ 65536 ∧ (s0.presentFirst (.tick 65536)).pending = [.tick 65536]) := by decide

theorem witness_StepPerformsTheOldestOperation :
    (s0.present (.tick 65535)).pending = .tick 65535 :: [] ∧ decode (s0.present (.tick 65535)).cfg (.tick 65535) = .ok (.tick 65535) := by
  decide

theorem witness_NothingPresentedNothingChanges : s0.pending = [] := rfl

theorem witness_EveryOperationCompletes :
    (s0.presentProgram [.cmd .stepfwd, .tick 65535]).PendingWellFormed ∧
    (s0.presentProgram [.cmd .stepfwd, .tick 65535]).pending =
      .command [0, 3, 0, 0, 0, 0, 0, 0] :: [.tick 65535] := by decide

theorem witness_EveryInterleavingRuns :
    Interleaves (α := Operation) [.command [0, 3, 0, 0, 0, 0, 0, 0]] [.tick 50, .tick 60] [.tick 50, .command [0, 3, 0, 0, 0, 0, 0, 0], .tick 60] ∧
    (∀ op ∈ [Operation.command [0, 3, 0, 0, 0, 0, 0, 0]], op.agent = .host) ∧
    (∀ op ∈ [Operation.tick 50, .tick 60], op.agent = .timeBase) ∧
    (s0.presentProgram [.tick 50, .cmd .stepfwd, .tick 60]).pending = [.tick 50, .command [0, 3, 0, 0, 0, 0, 0, 0], .tick 60] ∧
    (s0.presentProgram [.tick 50, .cmd .stepfwd, .tick 60]).PendingWellFormed :=
  ⟨.right _ (.left _ (.right _ .nil)), by decide, by decide, by decide, by decide⟩

theorem witness_CommandsMoveNothing : Instr.stop.isCommand = true ∧ (Instr.nop 2).isCommand = true := by decide

theorem witness_LastSteppingCommandWins :
    (∀ j ∈ [Instr.stepbwd, .rotfwd], j ∈ [Instr.stepfwd, .stepbwd, .rotfwd, .rotbwd]) ∧
    Instr.stepfwd ∈ [Instr.stepfwd, .stepbwd, .rotfwd, .rotbwd] := by decide

theorem witness_RepeatedMotionCommandChangesNothing :
    Instr.init ∈ [Instr.stop, .init, .stepfwd, .stepbwd, .rotfwd, .rotbwd] := by decide

theorem witness_RepeatedSpeedCommandsClamp :
    (1 ≤ s0.speed.toNat ∧ s0.speed.toNat ≤ 150) ∧ (1 ≤ { s0 with speed := 1 }.speed.toNat) ∧ ({ s0 with speed := 150 }.speed.toNat ≤ 150) := by
  decide

theorem witness_SpeedUpAndDownAreInverse :
    (1 ≤ { s0 with speed := 149 }.speed.toNat ∧ { s0 with speed := 149 }.speed.toNat ≤ 149) ∧
    (2 ≤ { s0 with speed := 2 }.speed.toNat ∧ { s0 with speed := 2 }.speed.toNat ≤ 150) := by decide

theorem witness_FasterIsNeverSlower : 1 ≤ { s0 with speed := 1 }.speed.toNat ∧ { s0 with speed := 1 }.speed.toNat ≤ 150 := by decide

theorem witness_StepsParamRepliesFiveDigits :
    2345 = (12345 : Param).toNat % s0.cfg.pow10.p4 ∧ 345 = 2345 % s0.cfg.pow10.p3 ∧ 45 = 345 % s0.cfg.pow10.p2 ∧
    5 = 45 % s0.cfg.pow10.p1 := by decide +revert

theorem witness_StepsParamIsZeroPaddedDecimal : s0.cfg.pow10 = ⟨10, 100, 1000, 10000⟩ := by decide

theorem witness_UnassignedCodesAreNoOperation :
    (2 : Byte) ∉ [(0 : Byte), 1, 3, 4, 5, 6, 50, 100, 101, 200, 201] ∧
    (255 : Byte) ∉ [(0 : Byte), 1, 3, 4, 5, 6, 50, 100, 101, 200, 201] := by decide

theorem witness_RepliesRevealOnlySpeed :
    Instr.speedq.isCommand = true ∧ s0.cfg = (st .stopped .idle 1 1 9 true 0b1111).cfg ∧
    s0.speed = (st .stopped .idle 1 1 9 true 0b1111).speed ∧
    exec .speedq s0 = .next (s0.replyWith (enc3 20)) ∧
    exec .speedq (st .stopped .idle 1 1 9 true 0b1111) = .next ((st .stopped .idle 1 1 9 true 0b1111).replyWith (enc3 20)) :=
  ⟨rfl, rfl, rfl, rfl, rfl⟩

theorem witness_ReplyLivesUntilTheNextCommand : Instr.dataout.isCommand = true := rfl

theorem witness_GatedTickCorrectsAndAccumulates :
    s0.speed ≠ 0 ∧
    49 = (match s0.cfg.accOverflow with
      | .saturate => min (s0.acc + 49) (2 ^ s0.cfg.timerWidth - 1)
      | .wrap => (s0.acc + 49) % 2 ^ s0.cfg.timerWidth) ∧
    49 < s0.cfg.baseInterval / s0.speed.toNat := by decide

theorem witness_StoppedTickClearsLinesAndSteps :
    (st .stopped .stopped 2 0 46 false 0b1001).ms = .stopped ∧ (st .stopped .stopped 2 0 46 false 0b1001).Qualifies 50 := by decide

theorem witness_IdleTickEnergizesTwoLinesOnce :
    (s0.ms = .idle ∧ s0.Qualifies 50 ∧ s0.init = false) ∧
    ((st .idle .idle 2 0 0 true 0b0101).ms = .idle ∧ (st .idle .idle 2 0 0 true 0b0101).Qualifies 50 ∧
      (st .idle .idle 2 0 0 true 0b0101).init = true) := by decide

theorem witness_ForwardTickStepsOrIdles :
    let s := st .steppingForward .idle 0 2 1 true 0b1001
    let z := st .steppingForward .steppingForward 3 1 0 true 0b1101
    (s.ms = .steppingForward ∧ s.Qualifies 50 ∧
      (1 : Pos) = (if MotorState.steppingForward ≠ s.prevMs ∧ reversal s.cfg .forward s.cur s.last = true then s.cur + 1 else s.cur) ∧
      0 < s.steps.toNat) ∧
    (z.ms = .steppingForward ∧ z.Qualifies 50 ∧
      (3 : Pos) = (if MotorState.steppingForward ≠ z.prevMs ∧ reversal z.cfg .forward z.cur z.last = true then z.cur + 1 else z.cur) ∧
      z.steps.toNat = 0) := by decide

theorem witness_BackwardTickStepsOrIdles :
    let s := st .steppingBackward .steppingForward 3 1 48 true 0b1101
    let z := st .steppingBackward .steppingBackward 0 2 0 true 0b0001
    (s.ms = .steppingBackward ∧ s.Qualifies 50 ∧
      (2 : Pos) = (if MotorState.steppingBackward ≠ s.prevMs ∧ reversal s.cfg .backward s.cur s.last = true then s.cur - 1 else s.cur) ∧
      0 < s.steps.toNat) ∧
    (z.ms = .steppingBackward ∧ z.Qualifies 50 ∧
      (0 : Pos) = (if MotorState.steppingBackward ≠ z.prevMs ∧ reversal z.cfg .backward z.cur z.last = true then z.cur - 1 else z.cur) ∧
      z.steps.toNat = 0) := by decide

theorem witness_RevSignIsTheSignOfTheDifference : Config.ex.reversal = .revSign := rfl

theorem witness_EveryReversalPredicateCanBeConfigured : wrapping.reversal = .pairs [(2, 0)] [] := rfl

theorem witness_StepLeavesPositionsTwoApart :
    let s := st .steppingForward .steppingForward 3 1 5 true 0b0000
    (s.ms = .steppingForward ∨ s.ms = .steppingBackward) ∧ s.Qualifies 50 ∧ 0 < s.steps.toNat := by decide

theorem witness_ZeroThresholdQualifiesEveryTick :
    (State.resetWith { wrapping with baseInterval := 10, admitted := by decide }).cfg.baseInterval <
      (State.resetWith { wrapping with baseInterval := 10, admitted := by decide }).speed.toNat := by decide -- vector G6

theorem witness_EnoughElapsedTimeQualifies :
    s0.Legal ∧ s0.cfg.accOverflow = .saturate ∧ s0.cfg.baseInterval / s0.speed.toNat ≤ s0.acc + 65535 := by decide -- vector G10

theorem witness_WrappedTimeIsLost :
    let s := { State.resetWith wrapping with speed := 1, acc := 65000 }
    s.Legal ∧ s.cfg.accOverflow = .wrap ∧ 1000 < 2 ^ s.cfg.timerWidth ∧ 2 ^ s.cfg.timerWidth ≤ s.acc + 1000 ∧
    s.acc + 1000 - 2 ^ s.cfg.timerWidth < s.cfg.baseInterval / s.speed.toNat := by decide -- vector G8

theorem witness_FirstQualifyingTickIsTheCeiling :
    s0.speed ≠ 0 ∧ s0.acc = 0 ∧ s0.cfg.accOverflow = .saturate ∧ 0 < 20 ∧ 0 < s0.cfg.baseInterval / s0.speed.toNat ∧
    2 * 20 < s0.cfg.baseInterval / s0.speed.toNat ∧ s0.cfg.baseInterval / s0.speed.toNat ≤ (2 + 1) * 20 := by decide -- vector G12

theorem witness_SteppingCommandTakesItsCountOfTicks :
    ((Instr.stepbwd, Direction.backward, 1) ∈ [(Instr.stepfwd, Direction.forward, 1), (.stepbwd, .backward, 1),
      (.rotfwd, .forward, 48), (.rotbwd, .backward, 48)] ∧
      [50].length = 1 ∧ (∀ e ∈ [50], s0.cfg.baseInterval / s0.speed.toNat ≤ e ∧ e < 2 ^ s0.cfg.timerWidth) ∧
      (1 : Pos) = (if Direction.backward.motorState ≠ s0.prevMs ∧ reversal s0.cfg .backward s0.cur s0.last = true
        then Direction.backward.ahead s0.cur else s0.cur)) ∧
    ((Instr.rotfwd, Direction.forward, 48) ∈ [(Instr.stepfwd, Direction.forward, 1), (.stepbwd, .backward, 1),
      (.rotfwd, .forward, 48), (.rotbwd, .backward, 48)] ∧
      (List.replicate 48 50).length = 48 ∧
      (∀ e ∈ List.replicate 48 50, s0.cfg.baseInterval / s0.speed.toNat ≤ e ∧ e < 2 ^ s0.cfg.timerWidth) ∧
      (2 : Pos) = (if Direction.forward.motorState ≠ s0.prevMs ∧ reversal s0.cfg .forward s0.cur s0.last = true
        then Direction.forward.ahead s0.cur else s0.cur)) ∧
    s0.speed ≠ 0 ∧ (s0.cfg.accOverflow = .saturate ∨ s0.acc = 0) := by decide

theorem witness_StopActsAtTheNextQualifyingTick :
    ¬ s0.Qualifies 49 ∧ s0.Qualifies 50 ∧ Instr.stepfwd ∈ [Instr.stepfwd, .stepbwd, .rotfwd, .rotbwd] := by decide

theorem witness_InitSuppressesTheHolding : (st .idle .idle 2 0 0 true 0b0101).Qualifies 50 := by decide

theorem witness_FirstQualifyingTickAfterResetHolds : Config.ex.baseInterval / 20 ≤ accAdd Config.ex 0 50 := by decide

theorem witness_ReversalIsCorrectedByPosition :
    (let s := st .steppingForward .steppingForward 3 1 0 true 0b1101
     s.cfg.reversal = .revSign ∧ s.cur - s.last = 2 ∧ ¬ s.Qualifies 0 ∧ s.prevMs = .steppingForward) ∧
    (let s := st .steppingBackward .steppingBackward 1 3 0 true 0b0110
     s.cfg.reversal = .revSign ∧ s.cur - s.last = 2 ∧ ¬ s.Qualifies 0 ∧ s.prevMs = .steppingBackward) ∧
    (let s := st .idle .idle 0 2 46 true 0b1001
     s.cfg.reversal = .revSign ∧ s.cur - s.last = 2 ∧ ¬ s.Qualifies 0 ∧ (s.prevMs = .idle ∨ s.prevMs = .stopped)) := by decide

theorem witness_StepKeepsTheRegistersInRange :
    ({ s0 with speed := 150, steps := 48, acc := 65535 }).Legal ∧ ∃ t, step { s0 with speed := 150, steps := 48, acc := 65535 } = .next t :=
  ⟨by decide, _, rfl⟩

theorem witness_StepKeepsTwoLinesToHold :
    (st .steppingForward .steppingForward 3 1 0 false 0b1101).TwoLinesToHold ∧
    ∃ t, step ((st .steppingForward .steppingForward 3 1 0 false 0b1101).present (.tick 50)) = .next t :=
  ⟨by decide, _, rfl⟩

theorem witness_ConfigurationNeverChanges :
    ∃ t, Sys2Proof.core.run 2 (s0.presentProgram [.cmd .stepfwd, .tick 50]) = .next t := ⟨_, rfl⟩

theorem witness_ImpossibleConfigurationsAreRefused :
    (let p := wrapping.toParams
     p.timerWidth ≠ 0 ∧ p.baseInterval ≤ 2 ^ p.timerWidth - 1 ∧
      p.pow10.p1 ≠ 0 ∧ p.pow10.p2 ≠ 0 ∧ p.pow10.p3 ≠ 0 ∧ p.pow10.p4 ≠ 0 ∧
      p.dataOutString ≠ [] ∧ p.dataOutString.length ≤ 255 ∧ p.cmdOffset ≤ 7 ∧ p.paramOffset ≤ 6 ∧
      p.cmdOffset ≠ p.paramOffset ∧ p.cmdOffset ≠ p.paramOffset + 1) ∧
    { wrapping.toParams with paramOffset := 7 }.paramOffset > 6 ∧
    { wrapping.toParams with timerWidth := 0, baseInterval := 0 }.timerWidth = 0 := by decide

end Sys2Proof.Tests
end

section
/-! PROOFS of the family 00_scope: the waiting step, and REVERSAL as a parameter. -/

namespace Sys2Proof.Machine

/-! ### With nothing presented SEQ waits -/

/-- Settles O6: of the three ways a step goes, the other two have an operation presented. -/
theorem nothingPresentedNothingChanges : Obligations.NothingPresentedNothingChanges := by
  unfold Obligations.NothingPresentedNothingChanges
  intro s hnil
  obtain ⟨-, hwait⟩ | ⟨op, rest, i, hcons, -⟩ | ⟨op, rest, m, hcons, -⟩ := step_cases s
  · exact hwait
  · simp [hnil] at hcons
  · simp [hnil] at hcons

/-! ### A rule for every reversal predicate: the list of the pairs at which it holds -/

/-- The four phase positions (10_state.md R24). -/
def allPositions : List Pos := [0, 1, 2, 3]

theorem mem_allPositions : ∀ p : Pos, p ∈ allPositions := by decide

/-- The pairs (CUR, LAST) at which a predicate on two positions holds. -/
def pairsWhere (q : Pos → Pos → Bool) : List (Pos × Pos) :=
  (allPositions.product allPositions).filter fun x => q x.1 x.2

/-- Being listed is the predicate, because all sixteen pairs of positions are tried. -/
@[simp] theorem mem_pairsWhere (q : Pos → Pos → Bool) (cur last : Pos) :
    (cur, last) ∈ pairsWhere q ↔ q cur last = true := by
  have htried : (cur, last) ∈ allPositions.product allPositions :=
    List.mem_product.mpr ⟨mem_allPositions cur, mem_allPositions last⟩
  rw [pairsWhere, List.mem_filter]
  exact and_iff_right htried

/-- The value of REVERSAL that makes a predicate the reversal test (00_scope.md R8). -/
def predicateRule (p : Direction → Pos → Pos → Bool) : ReversalRule :=
  .pairs (pairsWhere (p .forward)) (pairsWhere (p .backward))

theorem reversal_predicateRule {p : Direction → Pos → Pos → Bool} {c : Config}
    (h : c.reversal = predicateRule p) (d : Direction) (cur last : Pos) :
    reversal c d cur last = p d cur last := by
  cases d with
  | forward => simp [reversal, h, predicateRule]
  | backward => simp [reversal, h, predicateRule]

/-- Settles O36 with the rule that lists, for each direction, the pairs at which the predicate holds. -/
theorem everyReversalPredicateCanBeConfigured : Obligations.EveryReversalPredicateCanBeConfigured := by
  unfold Obligations.EveryReversalPredicateCanBeConfigured
  intro p
  exact ⟨predicateRule p, fun _ h => reversal_predicateRule h⟩

end Sys2Proof.Machine
end

section
/-! PROOFS of the family 10_state: which registers an operation writes, the range invariant, and what a reply reveals. -/

namespace Sys2Proof.Machine

/-! ### What a COMMAND can do, said once -/

/-- The reply of a COMMAND as a function of the configuration and SPEED alone (10_state.md R33);
a TICK has none, and the `[]` of its arm is never read. -/
def commandReply (c : Config) (speed : Byte) : Instr → List Byte
  | .stepsp param => enc5 c.pow10 param
  | .dataout => c.dataOutString
  | .speedq => enc3 speed
  | .stop | .init | .stepfwd | .stepbwd | .rotfwd | .rotbwd | .speedup | .speeddn | .nop _ | .tick _ => []

/-- The five ways a COMMAND ends, each with the whole state it leaves (10_state.md R20). -/
theorem exec_command_forms {i : Instr} {s t : State} (hc : i.isCommand = true) (h : exec i s = .next t) :
    (i = .stop ∧
      t = { s with ms := .stopped, init := false, reply := some (commandReply s.cfg s.speed i) }) ∨
    (i = .init ∧
      t = { s with ms := .idle, init := true, reply := some (commandReply s.cfg s.speed i) }) ∨
    (i ∈ [Instr.stepfwd, .stepbwd, .rotfwd, .rotbwd] ∧ ∃ (d : Direction) (n : Byte), (n = 1 ∨ n = 48) ∧
      t = { s with ms := d.motorState, steps := n, reply := some (commandReply s.cfg s.speed i) }) ∨
    (i ∈ [Instr.speedup, .speeddn] ∧ ∃ v : Byte, (v = speedRaised s.speed ∨ v = speedLowered s.speed) ∧
      t = { s with speed := v, reply := some (commandReply s.cfg s.speed i) }) ∨
    t = { s with reply := some (commandReply s.cfg s.speed i) } := by
  cases i with
  | stop => cases h; exact .inl ⟨rfl, rfl⟩
  | init => cases h; exact .inr (.inl ⟨rfl, rfl⟩)
  | stepfwd => cases h; exact .inr (.inr (.inl ⟨by simp, .forward, 1, .inl rfl, rfl⟩))
  | stepbwd => cases h; exact .inr (.inr (.inl ⟨by simp, .backward, 1, .inl rfl, rfl⟩))
  | rotfwd => cases h; exact .inr (.inr (.inl ⟨by simp, .forward, 48, .inr rfl, rfl⟩))
  | rotbwd => cases h; exact .inr (.inr (.inl ⟨by simp, .backward, 48, .inr rfl, rfl⟩))
  | speedup => cases h; exact .inr (.inr (.inr (.inl ⟨by simp, _, .inl rfl, rfl⟩)))
  | speeddn => cases h; exact .inr (.inr (.inr (.inl ⟨by simp, _, .inr rfl, rfl⟩)))
  | stepsp | dataout | speedq | nop => cases h; exact .inr (.inr (.inr (.inr rfl)))
  | tick => cases hc

theorem exec_command_reply {i : Instr} {s t : State} (hc : i.isCommand = true) (h : exec i s = .next t) :
    t.reply = some (commandReply s.cfg s.speed i) := by
  obtain ⟨-, rfl⟩ | ⟨-, rfl⟩ | ⟨-, _, _, -, rfl⟩ | ⟨-, _, -, rfl⟩ | rfl := exec_command_forms hc h <;> rfl

/-- Settles O28: both replies are the same function of the configuration, SPEED and the instruction. -/
theorem repliesRevealOnlySpeed : Obligations.RepliesRevealOnlySpeed := by
  unfold Obligations.RepliesRevealOnlySpeed
  intro i s t s' t' hc hcfg hspeed hs ht
  rw [exec_command_reply hc hs, exec_command_reply hc ht, hcfg, hspeed]

/-! ### The registers an operation writes -/

/-- Settles O54: the five forms of a COMMAND show what it writes, and the frame of a TICK what it does not. -/
theorem registersHaveOnlyTheirWriters : Obligations.RegistersHaveOnlyTheirWriters := by
  unfold Obligations.RegistersHaveOnlyTheirWriters
  intro i s
  obtain ⟨t, h⟩ := exec_completes i s
  refine ⟨t, h, ?_⟩
  cases hc : i.isCommand with
  | true =>
    obtain ⟨rfl, rfl⟩ | ⟨rfl, rfl⟩ | ⟨hi, _, _, -, rfl⟩ | ⟨hi, _, -, rfl⟩ | rfl := exec_command_forms hc h
    · simp
    · simp
    · simp [hi]
    · simp [hi]
    · simp
  | false =>
    cases i with
    | tick e =>
      cases h
      obtain ⟨hcfg, hspeed, hreply, hpending⟩ := tickState_frame e s
      simp [hcfg, hspeed, hreply, hpending]
    | _ => cases hc

/-! ### The range invariant (10_state.md R34) -/

/-- A TICK clears STEPS, keeps it or counts it down; it counts down only where STEPS is not 0, so without wrap
(40_tick.md R78, R80, R81). -/
theorem tickState_steps_le (e : Nat) (s : State) : (tickState e s).steps.toNat ≤ s.steps.toNat := by
  obtain ⟨-, h⟩ | ⟨-, ⟨-, h⟩ | ⟨-, -, h⟩ | ⟨-, -, h⟩ | ⟨_, -, -, h⟩ | ⟨_, -, hpos, h⟩⟩ := tickState_forms e s
  · rw [h]
  · rw [h]; exact Nat.zero_le _
  · rw [h]
  · rw [h]
  · rw [h]
  · have hdown : (s.steps - 1).toNat ≤ s.steps.toNat := by bv_omega
    rw [h]; exact hdown

/-- A TICK leaves in ACC the sum ACC_ADD gives or 0 (40_tick.md R73, R76). -/
theorem tickState_acc_le (e : Nat) (s : State) : (tickState e s).acc ≤ 2 ^ s.cfg.timerWidth - 1 := by
  obtain ⟨-, h⟩ | ⟨-, ⟨-, h⟩ | ⟨-, -, h⟩ | ⟨-, -, h⟩ | ⟨_, -, -, h⟩ | ⟨_, -, -, h⟩⟩ := tickState_forms e s <;> rw [h]
  case inl => exact accAdd_le _ _ _
  all_goals exact Nat.zero_le _

theorem tickState_legal {s : State} (hs : s.Legal) (e : Nat) : (tickState e s).Legal := by
  obtain ⟨hmin, hmax, hsteps, -⟩ := hs
  obtain ⟨hcfg, hspeed, -, -⟩ := tickState_frame e s
  rw [State.Legal, hcfg, hspeed]
  exact ⟨hmin, hmax, (tickState_steps_le e s).trans hsteps, tickState_acc_le e s⟩

theorem exec_command_legal {i : Instr} {s t : State} (hs : s.Legal) (hc : i.isCommand = true)
    (h : exec i s = .next t) : t.Legal := by
  have ⟨hmin, hmax, hsteps, hacc⟩ := hs
  obtain ⟨-, rfl⟩ | ⟨-, rfl⟩ | ⟨-, _, n, hn, rfl⟩ | ⟨-, v, hv, rfl⟩ | rfl := exec_command_forms hc h
  · exact hs
  · exact hs
  · have hcount : n.toNat ≤ 48 := by rcases hn with rfl | rfl <;> decide
    exact ⟨hmin, hmax, hcount, hacc⟩
  · have hclamped : 1 ≤ v.toNat ∧ v.toNat ≤ 150 := by
      obtain rfl | rfl := hv
      · rw [speedRaised_toNat]; omega
      · rw [speedLowered_toNat]; omega
    exact ⟨hclamped.1, hclamped.2, hsteps, hacc⟩
  · exact hs

theorem exec_legal {i : Instr} {s t : State} (hs : s.Legal) (h : exec i s = .next t) : t.Legal := by
  cases i with
  | tick e => cases h; exact tickState_legal hs e
  | _ => exact exec_command_legal hs rfl h

/-- Settles O51: a step waits or performs one instruction, and every instruction keeps the ranges. -/
theorem stepKeepsTheRegistersInRange : Obligations.StepKeepsTheRegistersInRange := by
  unfold Obligations.StepKeepsTheRegistersInRange
  intro s t hs h
  obtain ⟨-, rfl⟩ | ⟨_, rest, i, -, -, hexec⟩ := step_next h
  · exact hs
  · have htaken : (s.setPending rest).Legal := hs
    exact exec_legal htaken hexec

/-- Settles O50: the reset values are in range, and the positions 2 and 0 are two apart. -/
theorem resetSatisfiesTheInvariants : Obligations.ResetSatisfiesTheInvariants := by
  unfold Obligations.ResetSatisfiesTheInvariants
  intro c
  have hlegal : (State.resetWith c).Legal :=
    ⟨(by decide : 1 ≤ (20 : Byte).toNat), (by decide : (20 : Byte).toNat ≤ 150),
      (by decide : (0 : Byte).toNat ≤ 48), Nat.zero_le _⟩
  have hidle : (State.resetWith c).ms.stepping = false := rfl
  have hapart : (State.resetWith c).cur - (State.resetWith c).last = 2 := (by decide : (2 : Pos) - 0 = 2)
  exact ⟨hlegal, fun hstepping => absurd hstepping (by simp [hidle]), fun _ _ => hapart⟩

/-! ### The default reversal predicate -/

/-- Settles O35: REV_SIGN decides the sign of the difference of the two positions as integers. -/
theorem revSignIsTheSignOfTheDifference : Obligations.RevSignIsTheSignOfTheDifference := by
  unfold Obligations.RevSignIsTheSignOfTheDifference
  intro c cur last hrule
  rw [reversal_revSign hrule, reversal_revSign hrule]
  exact ⟨decide_eq_true_iff, decide_eq_true_iff⟩

end Sys2Proof.Machine
end

section
/-! PROOFS of the family 20_memory: a step performs the oldest operation, and a run performs any interleaving. -/

namespace Sys2Proof.Machine

/-! ### One step, and as many steps as operations are presented -/

theorem step_of_decode {s : State} {op : Operation} {rest : List Operation} {i : Instr}
    (hp : s.pending = op :: rest) (hd : decode s.cfg op = .ok i) : step s = exec i (s.setPending rest) := by
  simp only [step, State.takePending_cons hp, hd]

/-- Settles O5: taking the oldest operation off is writing the rest back. -/
theorem stepPerformsTheOldestOperation : Obligations.StepPerformsTheOldestOperation := by
  unfold Obligations.StepPerformsTheOldestOperation
  intro s op rest i hp hd
  exact step_of_decode hp hd

/-- A run is the performance of what is presented (20_memory.md R44, R49): no operation reads what is still presented, so
taking the operations off one by one or all at the start makes no difference. -/
theorem run_eq_perform {ops : List Operation} {is : List Instr} {s : State} (hp : s.pending = ops)
    (hd : ops.map (decode s.cfg) = is.map .ok) :
    Sys2Proof.core.run ops.length s = perform is (s.setPending []) := by
  induction ops generalizing is s with
  | nil =>
    obtain rfl : is = [] := by simpa using hd.symm
    have hwritten : s.setPending [] = s := by rw [← hp]; rfl
    rw [hwritten]
    rfl
  | cons op rest ih =>
    obtain _ | ⟨i, is⟩ := is
    · cases hd
    obtain ⟨hop, hrest⟩ := List.cons.inj hd
    obtain ⟨t, hexec⟩ := exec_completes i s
    have hcfg : t.cfg = s.cfg := (exec_frame hexec).1
    have hstep : step s = .next (t.setPending rest) := (step_of_decode hp hop).trans (exec_setPending hexec rest)
    have hrun : Sys2Proof.core.run rest.length (t.setPending rest) = perform is (t.setPending []) :=
      ih rfl (by rw [State.setPending_cfg, hcfg]; exact hrest)
    rw [List.length_cons, core_run_succ hstep, hrun, perform_cons (exec_setPending hexec [])]

/-- Every well-formed sequence of operations decodes whole (30_encoding.md R61). -/
theorem map_decode_of_wf {c : Config} {ops : List Operation} (h : ∀ op ∈ ops, op.wf c = true) :
    ∃ is : List Instr, ops.map (decode c) = is.map .ok := by
  induction ops with
  | nil => exact ⟨[], rfl⟩
  | cons op rest ih =>
    obtain ⟨hop, hrest⟩ := List.forall_mem_cons.mp h
    obtain ⟨i, hi⟩ := decode_of_wf hop
    obtain ⟨is, his⟩ := ih hrest
    exact ⟨i :: is, by rw [List.map_cons, hi, his, List.map_cons]⟩

/-! ### An interleaving keeps each agent's own order -/

theorem Interleaves.symm {α : Type} {xs ys zs : List α} (h : Interleaves xs ys zs) : Interleaves ys xs zs := by
  induction h with
  | nil => exact .nil
  | left x _ ih => exact .right x ih
  | right y _ ih => exact .left y ih

/-- A test that only the first sequence passes picks it out of any interleaving. -/
theorem Interleaves.filter_eq {α : Type} {xs ys zs : List α} (h : Interleaves xs ys zs) {p : α → Bool}
    (hx : ∀ x ∈ xs, p x = true) (hy : ∀ y ∈ ys, p y = false) : zs.filter p = xs := by
  induction h with
  | nil => rfl
  | left x _ ih =>
    obtain ⟨hpx, hxs⟩ := List.forall_mem_cons.mp hx
    rw [List.filter_cons_of_pos hpx, ih hxs hy]
  | right y _ ih =>
    obtain ⟨hpy, hys⟩ := List.forall_mem_cons.mp hy
    rw [List.filter_cons_of_neg (by simp [hpy]), ih hx hys]

/-- Settles O8: each agent's operations are picked out of the order by their agent, and the run is the performance of what
the operations decode to, which completes. -/
theorem everyInterleavingRuns : Obligations.EveryInterleavingRuns := by
  unfold Obligations.EveryInterleavingRuns
  rintro s commands ticks _ hmerge hcommands hticks rfl hwf
  obtain ⟨is, hdecode⟩ := map_decode_of_wf hwf
  obtain ⟨t, ht⟩ := perform_completes is (s.setPending [])
  refine ⟨?_, ?_, is, t, hdecode, (run_eq_perform rfl hdecode).trans ht, ht⟩
  · exact hmerge.filter_eq (by simpa using hcommands) (fun op hop => by simp [hticks op hop])
  · exact hmerge.symm.filter_eq (by simpa using hticks) (fun op hop => by simp [hcommands op hop])

end Sys2Proof.Machine
end

section
/-! PROOFS of the family 30_encoding: the command map, the parameter, the round trip of the encoder, and what is refused. -/

namespace Sys2Proof.Machine

/-! ### The command map and the parameter -/

/-- NOP is the row of every code not named (30_encoding.md R60). -/
theorem commandOf_of_unassigned {code : Byte} (h : code ∉ assignedCodes) (p : Param) : commandOf code p = .nop code := by
  unfold commandOf
  split
  case h_12 => rfl
  all_goals exact absurd (by decide) h

/-- The sixteen bits of {PARAM_HI, PARAM_LO} as a number (30_encoding.md R58). -/
theorem assembleParam_toNat (hi lo : Byte) : (assembleParam hi lo).toNat = hi.toNat * 256 + lo.toNat := by
  rw [assembleParam, BitVec.toNat_append, ← Nat.shiftLeft_add_eq_or_of_lt lo.isLt, Nat.shiftLeft_eq]

theorem assembleParam_eq_ofNat (hi lo : Byte) : assembleParam hi lo = BitVec.ofNat 16 (hi.toNat * 256 + lo.toNat) := by
  rw [← assembleParam_toNat, BitVec.ofNat_toNat, BitVec.setWidth_eq]

/-! ### Decoding and encoding agree -/

/-- Settles O1: a descriptor the encoder makes has the instruction's code and parameter, and the row of that code is the
instruction; a NOP's code is none of the named ones, and a TICK's ELAPSED fits TIMER_WIDTH. -/
theorem decodeOfEncodeIsTheInstruction : Obligations.DecodeOfEncodeIsTheInstruction := by
  unfold Obligations.DecodeOfEncodeIsTheInstruction
  intro c i hwf
  cases i with
  | nop code =>
    have hunassigned : code ∉ assignedCodes := by simpa [Instr.wf] using hwf
    rw [encode, decode_makeDesc, commandOf_of_unassigned hunassigned]
  | tick e => exact decode_tick (of_decide_eq_true hwf)
  | stepsp param => exact decode_makeDesc c 0x32 param
  | _ => exact decode_makeDesc c _ 0

/-- Settles O2: a named code is one of eleven, each with its row; any other falls through the whole chain to NOP. -/
theorem codeAloneSelectsTheCommand : Obligations.CodeAloneSelectsTheCommand := by
  unfold Obligations.CodeAloneSelectsTheCommand
  rintro c desc code hi lo hlen hcode rfl rfl
  have hrow : decode c (.command desc) = .ok (commandOf code (descParam c desc)) := hcode ▸ decode_command c hlen
  rw [hrow, ← assembleParam_eq_ofNat]
  by_cases h : code ∈ assignedCodes
  · simp only [assignedCodes, List.mem_cons, List.not_mem_nil, or_false] at h
    obtain rfl | rfl | rfl | rfl | rfl | rfl | rfl | rfl | rfl | rfl | rfl := h <;> rfl
  · rw [commandOf_of_unassigned h]
    simp only [assignedCodes, List.mem_cons, List.not_mem_nil, or_false, not_or] at h
    simp only [h, if_false]

/-- Settles O56: the row of code 50 holds the assembled parameter, and every other row is the same for any two. -/
theorem onlyCode50ReadsTheParameter : Obligations.OnlyCode50ReadsTheParameter := by
  unfold Obligations.OnlyCode50ReadsTheParameter
  intro c desc hlen
  rw [decode_command c hlen]
  constructor
  · intro (hcode : descCode c desc = 0x32)
    exact ⟨descParam c desc, by rw [hcode]; rfl, assembleParam_toNat _ _⟩
  · intro (hcode : descCode c desc ≠ 0x32)
    have hrow := commandOf_of_ne hcode
    refine ⟨fun param heq => (hrow _ 0).2 param (Except.ok.inj heq), ?_⟩
    intro other hother (hsame : descCode c other = descCode c desc)
    rw [decode_command c hother, hsame, (hrow _ _).1]

/-- Settles O3: EX reads CODE at 1 and PARAM at 2 and 3, and its TIMER_WIDTH is 16. -/
theorem writtenOutDescriptorsDecode : Obligations.WrittenOutDescriptorsDecode := by
  unfold Obligations.WrittenOutDescriptorsDecode
  have htick : 50 < 2 ^ Config.ex.timerWidth := by decide
  exact ⟨decode_command _ rfl, decode_command _ rfl, decode_command _ rfl, decode_command _ rfl, decode_command _ rfl,
    decode_command _ rfl, decode_tick htick⟩

/-! ### What is no operation -/

theorem decode_command_of_length_ne {desc : List Byte} (c : Config) (h : desc.length ≠ 8) :
    decode c (.command desc) = .error .descriptorLength :=
  if_neg h

theorem decode_tick_of_le {c : Config} {e : Nat} (h : 2 ^ c.timerWidth ≤ e) :
    decode c (.tick e) = .error .elapsedOutOfRange :=
  if_neg (Nat.not_lt.mpr h)

theorem step_of_malformed {s : State} {op : Operation} {rest : List Operation} {m : Malformed}
    (hp : s.pending = op :: rest) (hd : decode s.cfg op = .error m) : step s = .refused (.malformed m) := by
  simp only [step, State.takePending_cons hp, hd]

/-- Settles O4: the step refuses what the decoder rejects, under the name the decoder gives. -/
theorem whatIsNoOperationIsRefused : Obligations.WhatIsNoOperationIsRefused := by
  unfold Obligations.WhatIsNoOperationIsRefused
  exact fun s _ => ⟨fun _ hlen hp => step_of_malformed hp (decode_command_of_length_ne s.cfg hlen),
    fun _ he hp => step_of_malformed hp (decode_tick_of_le he)⟩

end Sys2Proof.Machine
end

section
/-! PROOFS of the family 40_tick: the gate, the action of each motor state, and what every TICK keeps. -/

namespace Sys2Proof.Machine

/-! ### Stepping states and their directions -/

@[simp] theorem Direction.motorState_inj {d d' : Direction} : d.motorState = d'.motorState ↔ d = d' := by
  cases d <;> cases d' <;> decide

@[simp] theorem Direction.stopped_ne_motorState (d : Direction) : MotorState.stopped ≠ d.motorState := by
  cases d <;> decide

@[simp] theorem Direction.motorState_ne_stopped (d : Direction) : d.motorState ≠ .stopped :=
  d.stopped_ne_motorState.symm

@[simp] theorem Direction.idle_ne_motorState (d : Direction) : MotorState.idle ≠ d.motorState := by
  cases d <;> decide

@[simp] theorem Direction.motorState_ne_idle (d : Direction) : d.motorState ≠ .idle :=
  d.idle_ne_motorState.symm

/-- The stepping states are those of the two directions (10_state.md R23). -/
theorem MotorState.forward_or_backward_iff {m : MotorState} :
    m = .steppingForward ∨ m = .steppingBackward ↔ ∃ d : Direction, m = d.motorState := by
  constructor
  · rintro (rfl | rfl)
    · exact ⟨.forward, rfl⟩
    · exact ⟨.backward, rfl⟩
  · rintro ⟨d, rfl⟩
    cases d with
    | forward => exact .inl rfl
    | backward => exact .inr rfl

theorem Direction.stepping_motorState (d : Direction) : d.motorState.stepping = true := by
  cases d <;> rfl

/-! ### The lines an action writes (40_tick.md R79 to R81) -/

/-- The Idle energization sets the lines of LAST and CUR and no other (R79). -/
theorem lineLevel_hold (l : Lines) (last cur k : Pos) :
    lineLevel (energize (energize l last) cur) k = (decide (k = last ∨ k = cur) || lineLevel l k) := by
  rw [lineLevel_energize, lineLevel_energize, Bool.decide_or, ← Bool.or_assoc, Bool.or_comm (decide (k = cur))]

/-- A step writes the line it leaves low, and after it the line it enters high (R80, R81). -/
theorem lineLevel_move (l : Lines) (low high k : Pos) :
    lineLevel (energize (deenergize l low) high) k =
      if k = high then true else if k = low then false else lineLevel l k := by
  rw [lineLevel_energize, lineLevel_deenergize]
  by_cases hhigh : k = high
  · simp [hhigh]
  · by_cases hlow : k = low <;> simp [hhigh, hlow]

/-- Counting down a STEPS that is not 0 does not wrap. -/
theorem steps_sub_one_add_one {n : Byte} (h : n ≠ 0) : (n - 1).toNat + 1 = n.toNat := by
  bv_omega

theorem positionDifference_emod_four {cur last : Pos} (h : cur - last = 2) :
    ((cur.toNat : Int) - (last.toNat : Int)) % 4 = 2 := by
  revert cur last; decide

theorem exec_tick_eq {s t : State} {e : Nat} (h : tickState e s = t) : exec (.tick e) s = .next t :=
  congrArg _ h

/-! ### The TICK of each motor state: `tickState_forms` read at one state -/

theorem tickState_of_not_qualifies {s : State} {e : Nat} (h : ¬ s.Qualifies e) :
    tickState e s = { s with cur := gateCur s, prevMs := s.ms, acc := accAdd s.cfg s.acc e } := by
  obtain ⟨-, hform⟩ | ⟨hq, -⟩ := tickState_forms e s
  · exact hform
  · exact absurd hq h

theorem tickState_of_stopped {s : State} {e : Nat} (hms : s.ms = .stopped) (hq : s.Qualifies e) :
    tickState e s = { s with prevMs := .stopped, acc := 0, phase := 0b0000, steps := 0, init := false } := by
  simpa [hms, hq, hq.not_gt] using tickState_forms e s

theorem tickState_of_idle_init {s : State} {e : Nat} (hms : s.ms = .idle) (hq : s.Qualifies e) (hi : s.init = true) :
    tickState e s = { s with prevMs := .idle, acc := 0 } := by
  simpa [hms, hq, hq.not_gt, hi] using tickState_forms e s

theorem tickState_of_idle_not_init {s : State} {e : Nat} (hms : s.ms = .idle) (hq : s.Qualifies e)
    (hi : s.init = false) :
    tickState e s =
      { s with prevMs := .idle, acc := 0, init := true, phase := energize (energize s.phase s.last) s.cur } := by
  simpa [hms, hq, hq.not_gt, hi] using tickState_forms e s

theorem tickState_of_spent {s : State} {e : Nat} {d : Direction} (hms : s.ms = d.motorState) (hq : s.Qualifies e)
    (hz : s.steps = 0) :
    tickState e s = { s with prevMs := d.motorState, acc := 0, cur := gateCur s, ms := .idle } := by
  simpa [hms, hq, hq.not_gt, hz] using tickState_forms e s

theorem tickState_of_steps {s : State} {e : Nat} {d : Direction} (hms : s.ms = d.motorState) (hq : s.Qualifies e)
    (hpos : s.steps ≠ 0) :
    tickState e s =
      { s with
        prevMs := d.motorState
        acc := 0
        steps := s.steps - 1
        last := d.behind (gateCur s)
        cur := d.ahead (gateCur s)
        phase := energize (deenergize s.phase (d.behind (gateCur s))) (d.ahead (gateCur s)) } := by
  have hcount : ¬ s.steps = 0#8 := hpos
  simpa [hms, hq, hq.not_gt, hcount] using tickState_forms e s

/-- A TICK that qualifies clears ACC, whatever the state's action (40_tick.md R76). -/
theorem tickState_acc_of_qualifies {s : State} {e : Nat} (hq : s.Qualifies e) : (tickState e s).acc = 0 := by
  obtain ⟨hlt, -⟩ | ⟨-, ⟨-, h⟩ | ⟨-, -, h⟩ | ⟨-, -, h⟩ | ⟨_, -, -, h⟩ | ⟨_, -, -, h⟩⟩ := tickState_forms e s
  case inl => exact absurd hlt hq.not_gt
  all_goals rw [h]

/-! ### The invariant of the Idle energization (40_tick.md R79, R85 (e), R87) -/

/-- Where the count is spent the correction moves nothing: the step that spent it recorded PREV_MS (R72). -/
theorem gateCur_sub_last_of_spent {s : State} (hs : s.TwoLinesToHold) (hstepping : s.ms.stepping = true)
    (hz : s.steps = 0) : gateCur s - s.last = 2 := by
  obtain ⟨hprev, hapart⟩ := hs.1 hstepping hz
  rw [gateCur_of_same hprev.symm, hapart]

/-- Entering Idle corrects nothing (R71). -/
theorem gateCur_sub_last_of_idle {s : State} (hs : s.TwoLinesToHold) (hidle : s.ms = .idle) (hi : s.init = false) :
    gateCur s - s.last = 2 := by
  rw [gateCur_of_not_stepping (congrArg MotorState.direction hidle), hs.2 hidle hi]

/-- Neither clause speaks of a state that is neither stepping nor waiting to hold. -/
theorem twoLinesToHold_of_not_stepping {s : State} (hms : s.ms.stepping = false) (hi : s.ms = .idle → s.init = true) :
    s.TwoLinesToHold :=
  ⟨fun hstepping => by simp [hms] at hstepping, fun hidle hnot => by simp [hi hidle] at hnot⟩

theorem tickState_twoLinesToHold {s : State} (hs : s.TwoLinesToHold) (e : Nat) : (tickState e s).TwoLinesToHold := by
  obtain ⟨-, h⟩ | ⟨-, ⟨hms, h⟩ | ⟨hms, hi, h⟩ | ⟨hms, -, h⟩ | ⟨d, hms, hz, h⟩ | ⟨d, hms, -, h⟩⟩ := tickState_forms e s <;>
    rw [h]
  · exact ⟨fun hstepping hz => ⟨rfl, gateCur_sub_last_of_spent hs hstepping hz⟩, gateCur_sub_last_of_idle hs⟩
  · exact twoLinesToHold_of_not_stepping (congrArg _ hms) (by simp [hms])
  · exact twoLinesToHold_of_not_stepping (congrArg _ hms) fun _ => hi
  · exact twoLinesToHold_of_not_stepping (congrArg _ hms) fun _ => rfl
  · have hstepping : s.ms.stepping = true := hms ▸ d.stepping_motorState
    exact ⟨fun hidle => absurd hidle Bool.false_ne_true, fun _ _ => gateCur_sub_last_of_spent hs hstepping hz⟩
  · exact ⟨fun _ _ => ⟨rfl, d.ahead_sub_behind _⟩, fun _ _ => d.ahead_sub_behind _⟩

/-- The COMMAND that enters Idle sets INIT, and one that enters a stepping state loads a count that is not 0
(41_motion_commands.md R101 to R105). -/
theorem exec_command_twoLinesToHold {i : Instr} {s t : State} (hs : s.TwoLinesToHold) (hc : i.isCommand = true)
    (h : exec i s = .next t) : t.TwoLinesToHold := by
  obtain ⟨-, rfl⟩ | ⟨-, rfl⟩ | ⟨-, d, n, hn, rfl⟩ | ⟨-, v, -, rfl⟩ | rfl := exec_command_forms hc h
  · exact twoLinesToHold_of_not_stepping rfl nofun
  · exact twoLinesToHold_of_not_stepping rfl fun _ => rfl
  · have hcount : n ≠ 0 := by rcases hn with rfl | rfl <;> decide
    exact ⟨fun _ hz => absurd hz hcount, fun hidle => absurd hidle d.motorState_ne_idle⟩
  · exact hs
  · exact hs

theorem exec_twoLinesToHold {i : Instr} {s t : State} (hs : s.TwoLinesToHold) (h : exec i s = .next t) :
    t.TwoLinesToHold := by
  cases i with
  | tick e => cases h; exact tickState_twoLinesToHold hs e
  | _ => exact exec_command_twoLinesToHold hs rfl h

/-- Settles O52: a step waits or performs one instruction, and every instruction keeps the invariant. -/
theorem stepKeepsTwoLinesToHold : Obligations.StepKeepsTwoLinesToHold := by
  unfold Obligations.StepKeepsTwoLinesToHold
  intro s t hs h
  obtain ⟨-, rfl⟩ | ⟨_, rest, i, -, -, hexec⟩ := step_next h
  · exact hs
  · have htaken : (s.setPending rest).TwoLinesToHold := hs
    exact exec_twoLinesToHold htaken hexec

/-! ### The action of each motor state on a qualifying TICK (40_tick.md R78 to R81) -/

/-- Settles O31: Stopped has no direction, so the correction leaves CUR and only the Stopped action writes. -/
theorem stoppedTickClearsLinesAndSteps : Obligations.StoppedTickClearsLinesAndSteps := by
  unfold Obligations.StoppedTickClearsLinesAndSteps
  intro s e hms hq
  exact exec_tick_eq (tickState_of_stopped hms hq)

/-- Settles O32: the lines are those of LAST and CUR set one after the other, which is setting both. -/
theorem idleTickEnergizesTwoLinesOnce : Obligations.IdleTickEnergizesTwoLinesOnce := by
  unfold Obligations.IdleTickEnergizesTwoLinesOnce
  intro s e hms hq
  constructor
  · intro hi
    exact ⟨_, exec_tick_eq (tickState_of_idle_not_init hms hq hi), lineLevel_hold s.phase s.last s.cur⟩
  · intro hi
    exact exec_tick_eq (tickState_of_idle_init hms hq hi)

/-- The action of the stepping state of either direction, from the CUR that the correction leaves (R80, R81). -/
theorem exec_tick_of_motorState {d : Direction} {s : State} {e : Nat} {c : Pos} (hms : s.ms = d.motorState)
    (hq : s.Qualifies e)
    (hc : c = if d.motorState ≠ s.prevMs ∧ reversal s.cfg d s.cur s.last = true then d.ahead s.cur else s.cur) :
    (0 < s.steps.toNat → ∃ lines : Lines,
      exec (.tick e) s = .next { s with
        prevMs := d.motorState, acc := 0, steps := s.steps - 1, last := d.behind c, cur := d.ahead c, phase := lines } ∧
      ∀ k : Pos, lines.getLsbD k.toNat =
        if k = d.ahead c then true else if k = d.behind c then false else s.phase.getLsbD k.toNat) ∧
    (s.steps.toNat = 0 →
      exec (.tick e) s = .next { s with prevMs := d.motorState, acc := 0, cur := c, ms := .idle }) := by
  have hcorrected : gateCur s = c := by
    rw [hc, gateCur_of_stepping (d := d) (by rw [hms, Direction.direction_motorState]), hms]
  subst hcorrected
  constructor
  · intro hpos
    have hne : s.steps ≠ 0 := by bv_omega
    exact ⟨_, exec_tick_eq (tickState_of_steps hms hq hne), lineLevel_move s.phase _ _⟩
  · intro hz
    exact exec_tick_eq (tickState_of_spent hms hq (BitVec.eq_of_toNat_eq hz))

/-- Settles O33: the forward case of the action of either direction. -/
theorem forwardTickStepsOrIdles : Obligations.ForwardTickStepsOrIdles := by
  unfold Obligations.ForwardTickStepsOrIdles
  intro s e c hms hq hc
  exact exec_tick_of_motorState (d := .forward) hms hq hc

/-- Settles O34: the backward case of the action of either direction. -/
theorem backwardTickStepsOrIdles : Obligations.BackwardTickStepsOrIdles := by
  unfold Obligations.BackwardTickStepsOrIdles
  intro s e c hms hq hc
  exact exec_tick_of_motorState (d := .backward) hms hq hc

/-- Settles O39: whatever CUR the step starts from, it leaves LAST one behind it and CUR one ahead. -/
theorem stepLeavesPositionsTwoApart : Obligations.StepLeavesPositionsTwoApart := by
  unfold Obligations.StepLeavesPositionsTwoApart
  intro s e hstepping hq hpos
  obtain ⟨d, hms⟩ := MotorState.forward_or_backward_iff.mp hstepping
  have hne : s.steps ≠ 0 := by bv_omega
  exact ⟨_, exec_tick_eq (tickState_of_steps hms hq hne), steps_sub_one_add_one hne,
    positionDifference_emod_four (d.ahead_sub_behind _)⟩

/-! ### The motor state and the lines under any instruction -/

/-- A TICK writes MS only where a stepping state's count is spent (R82). -/
theorem tickState_ms (e : Nat) (s : State) :
    (tickState e s).ms =
      if (s.ms = .steppingForward ∨ s.ms = .steppingBackward) ∧ s.steps.toNat = 0 ∧ s.Qualifies e then .idle
      else s.ms := by
  obtain ⟨hlt, h⟩ | ⟨hq, ⟨hms, h⟩ | ⟨hms, -, h⟩ | ⟨hms, -, h⟩ | ⟨d, hms, hz, h⟩ | ⟨d, hms, hpos, h⟩⟩ :=
    tickState_forms e s <;> rw [h]
  · rw [if_neg fun ⟨_, _, hq⟩ => hlt.not_ge hq]
  · simp [hms]
  · simp [hms]
  · simp [hms]
  · rw [if_pos ⟨MotorState.forward_or_backward_iff.mpr ⟨d, hms⟩, by rw [hz]; rfl, hq⟩]
  · rw [if_neg fun ⟨_, hz, _⟩ => hpos (BitVec.eq_of_toNat_eq hz)]

/-- Settles O37: a COMMAND writes MS as its row says, and for a TICK the table is `tickState_ms`. -/
theorem motorStateChangesOnlyAsTabled : Obligations.MotorStateChangesOnlyAsTabled := by
  unfold Obligations.MotorStateChangesOnlyAsTabled
  intro i s
  cases i with
  | tick e => exact ⟨_, rfl, tickState_ms e s⟩
  | _ => exact ⟨_, rfl, rfl⟩

/-- Settles O38: three of the six ways a TICK ends leave the lines, and each other one is one of the three transitions. -/
theorem atMostOneTransitionPerTick : Obligations.AtMostOneTransitionPerTick := by
  unfold Obligations.AtMostOneTransitionPerTick
  intro s e
  refine ⟨_, rfl, ?_⟩
  obtain ⟨-, h⟩ | ⟨-, ⟨hms, h⟩ | ⟨-, -, h⟩ | ⟨hms, -, h⟩ | ⟨_, -, -, h⟩ | ⟨d, hms, hpos, h⟩⟩ := tickState_forms e s <;>
    rw [h]
  · exact .inl rfl
  · exact .inr (.inl ⟨hms, rfl⟩)
  · exact .inl rfl
  · exact .inr (.inr (.inl ⟨hms, lineLevel_hold s.phase s.last s.cur⟩))
  · exact .inl rfl
  · have hmove := lineLevel_move s.phase (d.behind (gateCur s)) (d.ahead (gateCur s))
    have hne : d.behind (gateCur s) ≠ d.ahead (gateCur s) := (d.ahead_ne_behind _).symm
    refine .inr (.inr (.inr ⟨MotorState.forward_or_backward_iff.mpr ⟨d, hms⟩, steps_sub_one_add_one hpos, _, _, hne,
      ?_, ?_, ?_⟩))
    · exact (hmove _).trans ((if_neg hne).trans (if_pos rfl))
    · exact (hmove _).trans (if_pos rfl)
    · exact fun k hlow hhigh => (hmove k).trans ((if_neg hhigh).trans (if_neg hlow))

/-! ### The gate (40_tick.md R73 to R76, R84) -/

/-- CUR after phase 1, by the motor state (R71). -/
theorem gateCur_eq (s : State) :
    gateCur s =
      if s.ms = .steppingForward ∧ s.ms ≠ s.prevMs ∧ reversal s.cfg .forward s.cur s.last = true then s.cur + 1
      else if s.ms = .steppingBackward ∧ s.ms ≠ s.prevMs ∧ reversal s.cfg .backward s.cur s.last = true then s.cur - 1
      else s.cur := by
  cases hms : s.ms with
  | stopped => rw [gateCur_of_not_stepping (by rw [hms]; rfl)]; simp
  | idle => rw [gateCur_of_not_stepping (by rw [hms]; rfl)]; simp
  | steppingForward => rw [gateCur_of_stepping (d := .forward) (by rw [hms]; rfl), hms]; simp [Direction.ahead]
  | steppingBackward => rw [gateCur_of_stepping (d := .backward) (by rw [hms]; rfl), hms]; simp [Direction.ahead]

/-- Settles O30: below the threshold only phases 1 and 2 run. -/
theorem gatedTickCorrectsAndAccumulates : Obligations.GatedTickCorrectsAndAccumulates := by
  unfold Obligations.GatedTickCorrectsAndAccumulates
  intro s e acc hspeed hacc hlt
  obtain rfl : acc = accAdd s.cfg s.acc e := hacc
  have hgated : ¬ s.Qualifies e := by
    rw [State.Qualifies, threshold_of_ne_zero _ hspeed]
    exact hlt.not_ge
  rw [← gateCur_eq]
  exact exec_tick_eq (tickState_of_not_qualifies hgated)

/-- Settles O40: a quotient by a greater divisor is 0, and no sum is below 0. -/
theorem zeroThresholdQualifiesEveryTick : Obligations.ZeroThresholdQualifiesEveryTick := by
  unfold Obligations.ZeroThresholdQualifiesEveryTick
  intro s e hlt
  have hspeed : s.speed ≠ 0 := by
    intro hz
    simp [hz] at hlt
  have hq : s.Qualifies e := by
    rw [State.Qualifies, threshold_of_ne_zero _ hspeed, Nat.div_eq_of_lt hlt]
    exact Nat.zero_le _
  exact ⟨hq, _, rfl, tickState_acc_of_qualifies hq⟩

theorem State.Legal.speed_ne_zero {s : State} (hs : s.Legal) : s.speed ≠ 0 := by
  obtain ⟨hmin, -⟩ := hs
  intro hz
  simp [hz] at hmin

/-- A saturating accumulator is the smaller of the sum and the top of the range (R73). -/
theorem accAdd_of_saturate {c : Config} (h : c.accOverflow = .saturate) (a e : Nat) :
    accAdd c a e = min (a + e) (2 ^ c.timerWidth - 1) := by
  rw [accAdd, h, accMax]

/-- A wrapping accumulator that passes the top of the range once has lost the range (R84 (e)). -/
theorem accAdd_of_wrap {c : Config} (h : c.accOverflow = .wrap) {a e : Nat} (ha : a < 2 ^ c.timerWidth)
    (he : e < 2 ^ c.timerWidth) (hpast : 2 ^ c.timerWidth ≤ a + e) : accAdd c a e = a + e - 2 ^ c.timerWidth := by
  have honce : a + e - 2 ^ c.timerWidth < 2 ^ c.timerWidth := by omega
  rw [accAdd, h]
  exact (Nat.mod_eq_sub_mod hpast).trans (Nat.mod_eq_of_lt honce)

/-- Settles O41: the threshold is never above the top of the range, where the accumulator saturates. -/
theorem enoughElapsedTimeQualifies : Obligations.EnoughElapsedTimeQualifies := by
  unfold Obligations.EnoughElapsedTimeQualifies
  intro s e hs hsaturate henough
  have hq : s.Qualifies e := by
    rw [State.Qualifies, accAdd_of_saturate hsaturate]
    refine le_min ?_ (threshold_le_accMax s.cfg hs.speed_ne_zero)
    rw [threshold_of_ne_zero _ hs.speed_ne_zero]
    exact henough
  exact ⟨hq, _, rfl, tickState_acc_of_qualifies hq⟩

/-- Settles O42: what the wrap leaves in ACC is below the threshold, so the TICK does not qualify. -/
theorem wrappedTimeIsLost : Obligations.WrappedTimeIsLost := by
  unfold Obligations.WrappedTimeIsLost
  intro s e hs hwrap he hpast hlt
  have hacc : accAdd s.cfg s.acc e = s.acc + e - 2 ^ s.cfg.timerWidth := by
    obtain ⟨-, -, -, hrange⟩ := hs
    exact accAdd_of_wrap hwrap (by omega) he hpast
  have hgated : ¬ s.Qualifies e := by
    rw [State.Qualifies, threshold_of_ne_zero _ hs.speed_ne_zero, hacc]
    exact hlt.not_ge
  exact ⟨_, exec_tick_eq (tickState_of_not_qualifies hgated), hacc, rfl, rfl⟩

end Sys2Proof.Machine
end

section
/-! PROOFS of the family 41_motion_commands: how many TICKs a stepping command takes, and what each COMMAND writes. -/

namespace Sys2Proof.Machine

/-! ### A stepping command takes its count of TICKs and one more -/

/-- The stepping commands, each with its direction and its count (41_motion_commands.md R102 to R105). -/
def steppingCommands : List (Instr × Direction × Nat) :=
  [(.stepfwd, .forward, 1), (.stepbwd, .backward, 1), (.rotfwd, .forward, 48), (.rotbwd, .backward, 48)]

/-- The four stepping commands are one command in its direction and its count. -/
theorem exec_of_mem_steppingCommands {i : Instr} {d : Direction} {n : Nat} (h : (i, d, n) ∈ steppingCommands)
    (s : State) : exec i s = .next (startStepping d (BitVec.ofNat 8 n) s) := by
  simp only [steppingCommands, List.mem_cons, List.not_mem_nil, or_false, Prod.mk.injEq] at h
  obtain ⟨rfl, rfl, rfl⟩ | ⟨rfl, rfl, rfl⟩ | ⟨rfl, rfl, rfl⟩ | ⟨rfl, rfl, rfl⟩ := h <;> rfl

theorem count_of_mem_steppingCommands {i : Instr} {d : Direction} {n : Nat} (h : (i, d, n) ∈ steppingCommands) :
    n = 1 ∨ n = 48 := by
  simp only [steppingCommands, List.mem_cons, List.not_mem_nil, or_false, Prod.mk.injEq] at h
  omega

/-- The operands with which every TICK qualifies from ACC = 0 (40_tick.md R74). -/
def EnoughElapsed (c : Config) (speed : Byte) (e : Nat) : Prop :=
  c.baseInterval / speed.toNat ≤ e ∧ e < 2 ^ c.timerWidth

/-- A TICK of at least the threshold qualifies, unless a wrapping accumulator already holds time (40_tick.md R74). -/
theorem EnoughElapsed.qualifies {s : State} {e : Nat} (h : EnoughElapsed s.cfg s.speed e) (hspeed : s.speed ≠ 0)
    (hacc : s.cfg.accOverflow = .saturate ∨ s.acc = 0) : s.Qualifies e := by
  obtain ⟨hle, hlt⟩ := h
  rw [← threshold_of_ne_zero _ hspeed] at hle
  obtain hsaturate | hzero := hacc
  · rw [State.Qualifies, accAdd_of_saturate hsaturate]
    omega
  · rw [State.Qualifies, hzero, accAdd_of_lt (by omega)]
    omega

/-- What k steps in a direction, at least one, make of a state: t has counted k down and moved k positions on from where
the correction left CUR, with the direction recorded in PREV_MS (40_tick.md R71, R72, R76, R80, R81, R87). -/
structure Stepped (d : Direction) (k : Nat) (s t : State) : Prop where
  ms : t.ms = d.motorState
  prevMs : t.prevMs = d.motorState
  acc : t.acc = 0
  steps : t.steps.toNat + k = s.steps.toNat
  cur : t.cur = d.ahead^[k] (gateCur s)
  apart : t.cur - t.last = 2
  speed : t.speed = s.speed
  init : t.init = s.init
  cfg : t.cfg = s.cfg

theorem stepped_tickState {d : Direction} {s : State} {e : Nat} (hms : s.ms = d.motorState) (hq : s.Qualifies e)
    (hpos : s.steps ≠ 0) : Stepped d 1 s (tickState e s) := by
  rw [tickState_of_steps hms hq hpos]
  exact
    { ms := hms, prevMs := rfl, acc := rfl, steps := steps_sub_one_add_one hpos, cur := rfl
      apart := d.ahead_sub_behind _, speed := rfl, init := rfl, cfg := rfl }

/-- After a step PREV_MS is the stepping state, so the next TICK corrects nothing (40_tick.md R71, R72). -/
theorem Stepped.gateCur_eq {d : Direction} {k : Nat} {s t : State} (h : Stepped d k s t) : gateCur t = t.cur :=
  gateCur_of_same (h.ms.trans h.prevMs.symm)

theorem Stepped.trans {d : Direction} {j k : Nat} {s t u : State} (hst : Stepped d j s t) (htu : Stepped d k t u) :
    Stepped d (k + j) s u where
  ms := htu.ms
  prevMs := htu.prevMs
  acc := htu.acc
  steps := by rw [← hst.steps, ← htu.steps, Nat.add_assoc]
  cur := by rw [htu.cur, hst.gateCur_eq, hst.cur, Function.iterate_add_apply]
  apart := htu.apart
  speed := htu.speed.trans hst.speed
  init := htu.init.trans hst.init
  cfg := htu.cfg.trans hst.cfg

/-- Each TICK of enough time takes one step as long as the count lasts. -/
theorem perform_ticks_stepped {d : Direction} {s : State} {e : Nat} {es : List Nat} (hms : s.ms = d.motorState)
    (hspeed : s.speed ≠ 0) (hacc : s.cfg.accOverflow = .saturate ∨ s.acc = 0)
    (hsteps : es.length + 1 ≤ s.steps.toNat) (henough : ∀ x ∈ e :: es, EnoughElapsed s.cfg s.speed x) :
    ∃ t, perform ((e :: es).map .tick) s = .next t ∧ Stepped d (es.length + 1) s t := by
  induction es generalizing s e with
  | nil =>
    obtain ⟨he, -⟩ := List.forall_mem_cons.mp henough
    have hpos : s.steps ≠ 0 := by bv_omega
    exact ⟨_, rfl, stepped_tickState hms (he.qualifies hspeed hacc) hpos⟩
  | cons e' es ih =>
    obtain ⟨he, hrest⟩ := List.forall_mem_cons.mp henough
    have hpos : s.steps ≠ 0 := by
      intro hz
      simp [hz] at hsteps
    have hfirst : Stepped d 1 s (tickState e s) := stepped_tickState hms (he.qualifies hspeed hacc) hpos
    have hleft : es.length + 1 ≤ (tickState e s).steps.toNat := by
      have := hfirst.steps
      rw [List.length_cons] at hsteps
      omega
    obtain ⟨t, hperform, hothers⟩ := ih hfirst.ms (by rw [hfirst.speed]; exact hspeed) (.inr hfirst.acc) hleft
      (by rw [hfirst.cfg, hfirst.speed]; exact hrest)
    exact ⟨t, (perform_cons rfl _).trans hperform, hfirst.trans hothers⟩

/-- The count is spent: one more TICK that qualifies sets Idle and writes nothing that was not so already (R82, C3). -/
theorem Stepped.exec_tick_of_spent {d : Direction} {k e : Nat} {s t : State} (h : Stepped d k s t) (hz : t.steps = 0)
    (hq : t.Qualifies e) : exec (.tick e) t = .next { t with ms := .idle } := by
  apply exec_tick_eq
  rw [tickState_of_spent h.ms hq hz, h.gateCur_eq, ← h.prevMs, ← h.acc]

/-- A multiple of four steps comes back to the position it began at (40_tick.md R86). -/
theorem Direction.ahead_iterate_of_four_dvd (d : Direction) {n : Nat} (hn : 4 ∣ n) (p : Pos) : d.ahead^[n] p = p := by
  have hfour : Function.IsPeriodicPt d.ahead 4 p := by
    cases d <;> (revert p; decide)
  exact hfour.trans_dvd hn

/-- Settles O44: from the state the command leaves, n TICKs are n steps, and the count n is then spent; 48 steps are
twelve times around the four positions. -/
theorem steppingCommandTakesItsCountOfTicks : Obligations.SteppingCommandTakesItsCountOfTicks := by
  unfold Obligations.SteppingCommandTakesItsCountOfTicks
  intro s i d n elapsed c hmem hspeed hacc hlength henough hc
  have hcount : n = 1 ∨ n = 48 := count_of_mem_steppingCommands hmem
  let s₀ := startStepping d (BitVec.ofNat 8 n) s
  have hloaded : s₀.steps.toNat = n := by
    obtain rfl | rfl := hcount <;> rfl
  have hcorrected : gateCur s₀ = c := hc ▸ gateCur_of_stepping d.direction_motorState
  obtain _ | ⟨e, es⟩ := elapsed
  · simp [← hlength] at hcount
  rw [List.length_cons] at hlength
  obtain ⟨t, hperform, ht⟩ := perform_ticks_stepped (s := s₀) (d := d) rfl hspeed hacc (by omega) henough
  have hspent : t.steps = 0 := by
    have := ht.steps
    bv_omega
  have hmoved : t.cur = if n = 1 then d.ahead c else c := by
    rw [ht.cur, hcorrected, hlength]
    obtain rfl | rfl := hcount
    · rfl
    · exact d.ahead_iterate_of_four_dvd (by decide) c
  refine ⟨t, (perform_cons (exec_of_mem_steppingCommands hmem s) _).trans hperform, hspent, ht.ms, ht.prevMs, ht.acc,
    hmoved, ht.apart, ht.speed, ht.init, ht.cfg, ?_⟩
  intro e' hle hlt
  have he : EnoughElapsed t.cfg t.speed e' := by
    rw [ht.cfg, ht.speed]
    exact ⟨hle, hlt⟩
  exact ht.exec_tick_of_spent hspent (he.qualifies (by rw [ht.speed]; exact hspeed) (.inr ht.acc))

/-! ### What each motion command writes -/

/-- A row of the command map that does not depend on the parameter is reached by its code alone (30_encoding.md R57). -/
theorem codeDecodesTo_of_row {code : Byte} {i : Instr} (hrow : ∀ param, commandOf code param = i) :
    CodeDecodesTo code i := by
  intro c desc hlen (hcode : descCode c desc = code)
  rw [decode_command c hlen, hcode, hrow]

/-- Settles O9: code 0 has its row, and STOP's three writes are all of its next state. -/
theorem stopStopsAndClearsInit : Obligations.StopStopsAndClearsInit := by
  unfold Obligations.StopStopsAndClearsInit
  exact ⟨codeDecodesTo_of_row fun _ => rfl, fun _ => rfl⟩

/-- Settles O10: code 1 has its row, and INIT's three writes are all of its next state. -/
theorem initIdlesAndSetsInit : Obligations.InitIdlesAndSetsInit := by
  unfold Obligations.InitIdlesAndSetsInit
  exact ⟨codeDecodesTo_of_row fun _ => rfl, fun _ => rfl⟩

/-- Settles O11: the forward stepping command with the count 1. -/
theorem stepForwardLoadsOneStep : Obligations.StepForwardLoadsOneStep := by
  unfold Obligations.StepForwardLoadsOneStep
  exact ⟨codeDecodesTo_of_row fun _ => rfl, exec_of_mem_steppingCommands (d := .forward) (n := 1) (by decide)⟩

/-- Settles O12: the backward stepping command with the count 1. -/
theorem stepBackwardLoadsOneStep : Obligations.StepBackwardLoadsOneStep := by
  unfold Obligations.StepBackwardLoadsOneStep
  exact ⟨codeDecodesTo_of_row fun _ => rfl, exec_of_mem_steppingCommands (d := .backward) (n := 1) (by decide)⟩

/-- Settles O13: the forward stepping command with the count 48. -/
theorem rotateForwardLoadsFortyEight : Obligations.RotateForwardLoadsFortyEight := by
  unfold Obligations.RotateForwardLoadsFortyEight
  exact ⟨codeDecodesTo_of_row fun _ => rfl, exec_of_mem_steppingCommands (d := .forward) (n := 48) (by decide)⟩

/-- Settles O14: the backward stepping command with the count 48. -/
theorem rotateBackwardLoadsFortyEight : Obligations.RotateBackwardLoadsFortyEight := by
  unfold Obligations.RotateBackwardLoadsFortyEight
  exact ⟨codeDecodesTo_of_row fun _ => rfl, exec_of_mem_steppingCommands (d := .backward) (n := 48) (by decide)⟩

/-- Settles O15: each of the five forms of a COMMAND writes MS, INIT, STEPS or SPEED, or none of them, and its reply. -/
theorem commandsMoveNothing : Obligations.CommandsMoveNothing := by
  unfold Obligations.CommandsMoveNothing
  intro i s hc
  obtain ⟨t, h⟩ := exec_completes i s
  refine ⟨t, h, ?_⟩
  obtain ⟨-, rfl⟩ | ⟨-, rfl⟩ | ⟨-, _, _, -, rfl⟩ | ⟨-, _, -, rfl⟩ | rfl := exec_command_forms hc h <;>
    exact ⟨rfl, rfl, rfl, rfl, rfl, rfl, rfl, _, rfl⟩

/-- Settles O17: what a motion command writes does not depend on the state, so writing it again changes nothing. -/
theorem repeatedMotionCommandChangesNothing : Obligations.RepeatedMotionCommandChangesNothing := by
  unfold Obligations.RepeatedMotionCommandChangesNothing
  intro i s hi
  obtain ⟨t, ht⟩ := exec_completes i s
  have hagain : exec i t = .next t := by
    simp only [List.mem_cons, List.not_mem_nil, or_false] at hi
    obtain rfl | rfl | rfl | rfl | rfl | rfl := hi <;> (cases ht; rfl)
  calc perform [i, i] s
      = perform [i] t := perform_cons ht [i]
    _ = perform [] t := perform_cons hagain []
    _ = exec i s := ht.symm

end Sys2Proof.Machine
end

section
/-! PROOFS of the family 42_speed_commands: the clamped SPEED under one speed command and under many, and the threshold. -/

namespace Sys2Proof.Machine

/-! ### The two speed commands, said once -/

theorem exec_speedup (s : State) :
    exec .speedup s = .next { s with speed := speedRaised s.speed, reply := some [] } := rfl

theorem exec_speeddn (s : State) :
    exec .speeddn s = .next { s with speed := speedLowered s.speed, reply := some [] } := rfl

/-- Settles O18: code 100 has its row, and SPEED and the reply are all that SPEEDUP writes. -/
theorem speedUpClampsAt150 : Obligations.SpeedUpClampsAt150 := by
  unfold Obligations.SpeedUpClampsAt150
  exact ⟨codeDecodesTo_of_row fun _ => rfl, exec_speedup⟩

/-- Settles O19: code 101 has its row, and SPEED and the reply are all that SPEEDDN writes. -/
theorem speedDownClampsAtOne : Obligations.SpeedDownClampsAtOne := by
  unfold Obligations.SpeedDownClampsAtOne
  exact ⟨codeDecodesTo_of_row fun _ => rfl, exec_speeddn⟩

/-! ### The same speed command many times -/

/-- An instruction that writes SPEED from SPEED and an empty reply, performed n times, writes SPEED n times over and nothing
else but the reply. -/
theorem perform_replicate_of_writes_speed {i : Instr} {f : Byte → Byte}
    (hwrites : ∀ s, exec i s = .next { s with speed := f s.speed, reply := some [] }) (n : Nat) (s : State) :
    ∃ reply, perform (List.replicate n i) s = .next { s with speed := f^[n] s.speed, reply := reply } := by
  induction n generalizing s with
  | zero => exact ⟨s.reply, rfl⟩
  | succ n ih =>
    obtain ⟨reply, hrest⟩ := ih { s with speed := f s.speed, reply := some [] }
    exact ⟨reply, (perform_cons (hwrites s) _).trans hrest⟩

theorem speedRaised_iterate_toNat {v : Byte} (hmax : v.toNat ≤ 150) (n : Nat) :
    (speedRaised^[n] v).toNat = min (v.toNat + n) 150 := by
  induction n with
  | zero => exact (min_eq_left hmax).symm
  | succ n ih =>
    rw [Function.iterate_succ_apply', speedRaised_toNat, ih]
    omega

theorem speedLowered_iterate_toNat {v : Byte} (hmin : 1 ≤ v.toNat) (n : Nat) :
    (speedLowered^[n] v).toNat = max (v.toNat - n) 1 := by
  induction n with
  | zero => exact (max_eq_left hmin).symm
  | succ n ih =>
    rw [Function.iterate_succ_apply', speedLowered_toNat, ih]
    omega

/-- Settles O20: n commands iterate the clamped sum or difference n times, which is clamping the whole sum or difference. -/
theorem repeatedSpeedCommandsClamp : Obligations.RepeatedSpeedCommandsClamp := by
  unfold Obligations.RepeatedSpeedCommandsClamp
  intro n s hmin hmax
  obtain ⟨_, hup⟩ := perform_replicate_of_writes_speed exec_speedup n s
  obtain ⟨_, hdown⟩ := perform_replicate_of_writes_speed exec_speeddn n s
  constructor
  · exact ⟨_, hup, speedRaised_iterate_toNat hmax n, rfl⟩
  · exact ⟨_, hdown, speedLowered_iterate_toNat hmin n, rfl⟩

/-! ### One speed command after the other -/

/-- Below the upper bound the sum is not clamped, and SPEEDDN takes it back (R112). -/
theorem speedLowered_speedRaised {v : Byte} (hmin : 1 ≤ v.toNat) (hmax : v.toNat ≤ 149) :
    speedLowered (speedRaised v) = v := by
  apply BitVec.eq_of_toNat_eq
  rw [speedLowered_toNat, speedRaised_toNat]
  omega

/-- Above the lower bound the difference is not clamped, and SPEEDUP takes it back (R112). -/
theorem speedRaised_speedLowered {v : Byte} (hmin : 2 ≤ v.toNat) (hmax : v.toNat ≤ 150) :
    speedRaised (speedLowered v) = v := by
  apply BitVec.eq_of_toNat_eq
  rw [speedRaised_toNat, speedLowered_toNat]
  omega

/-- Settles O21: where the first command does not clamp, the second writes the old SPEED back. -/
theorem speedUpAndDownAreInverse : Obligations.SpeedUpAndDownAreInverse := by
  unfold Obligations.SpeedUpAndDownAreInverse
  intro s
  constructor
  · intro hmin hmax
    rw [perform_cons (exec_speedup s), perform_cons (exec_speeddn _), speedLowered_speedRaised hmin hmax]
    rfl
  · intro hmin hmax
    rw [perform_cons (exec_speeddn s), perform_cons (exec_speedup _), speedRaised_speedLowered hmin hmax]
    rfl

/-! ### The threshold falls as SPEED rises -/

theorem ne_zero_of_one_le_toNat {v : Byte} (h : 1 ≤ v.toNat) : v ≠ 0 := by
  rintro rfl
  simp at h

/-- A greater divisor gives no greater quotient (40_tick.md R74). -/
theorem threshold_anti (c : Config) {v w : Byte} (hv : 1 ≤ v.toNat) (hle : v.toNat ≤ w.toNat) :
    threshold c w ≤ threshold c v := by
  rw [threshold_of_ne_zero c (ne_zero_of_one_le_toNat (hv.trans hle)),
    threshold_of_ne_zero c (ne_zero_of_one_le_toNat hv)]
  exact Nat.div_le_div_left hle hv

/-- Settles O22: up to 150 SPEEDUP lowers no SPEED, and from 1 on SPEEDDN raises none. -/
theorem fasterIsNeverSlower : Obligations.FasterIsNeverSlower := by
  unfold Obligations.FasterIsNeverSlower
  intro s hmin hmax
  have hup : s.speed.toNat ≤ (speedRaised s.speed).toNat := by
    rw [speedRaised_toNat]
    omega
  have hpos : 1 ≤ (speedLowered s.speed).toNat := by
    rw [speedLowered_toNat]
    omega
  have hdown : (speedLowered s.speed).toNat ≤ s.speed.toNat := by
    rw [speedLowered_toNat]
    omega
  constructor
  · exact ⟨_, exec_speedup s, threshold_anti s.cfg hmin hup⟩
  · exact ⟨_, exec_speeddn s, threshold_anti s.cfg hpos hdown⟩

end Sys2Proof.Machine
end

section
/-! PROOFS of the family 43_status_commands: the decimal replies of SPEEDQ and STEPSP, DATAOUT's fixed string, and NOP. -/

namespace Sys2Proof.Machine

/-! ### What each of the four commands answers, said once -/

theorem exec_speedq (s : State) : exec .speedq s = .next { s with reply := some (enc3 s.speed) } := rfl

theorem exec_stepsp (p : Param) (s : State) :
    exec (.stepsp p) s = .next { s with reply := some (enc5 s.cfg.pow10 p) } := rfl

theorem exec_dataout (s : State) : exec .dataout s = .next { s with reply := some s.cfg.dataOutString } := rfl

theorem exec_nop (code : Byte) (s : State) : exec (.nop code) s = .next { s with reply := some [] } := rfl

/-! ### The decimal replies -/

/-- A digit's byte with the character "0" first, as R115 writes it. -/
theorem digitByte_eq_zero_char_add (k : Nat) : digitByte k = BitVec.ofNat 8 (48 + k) := by
  rw [digitByte, digitOffset, Nat.add_comm]

/-- Settles O24: at each power the loop of ENC5 counts the quotient and leaves the rest, since no power is 0. -/
theorem stepsParamRepliesFiveDigits : Obligations.StepsParamRepliesFiveDigits := by
  unfold Obligations.StepsParamRepliesFiveDigits
  rintro s p r4 r3 r2 r1 rfl rfl rfl rfl
  rw [exec_stepsp, enc5_eq s.cfg.pow10_pos]
  rfl

/-- Settles O25: each rest is below its power of ten, so each quotient by the next power is a decimal digit. -/
theorem stepsParamIsZeroPaddedDecimal : Obligations.StepsParamIsZeroPaddedDecimal := by
  unfold Obligations.StepsParamIsZeroPaddedDecimal
  intro s p hpow
  have hreply := enc5_eq s.cfg.pow10_pos p
  simp only [hpow, digitByte_eq_zero_char_add] at hreply
  have hrange : p.toNat < 65536 := p.isLt
  refine ⟨p.toNat / 10000, p.toNat % 10000 / 1000, p.toNat % 10000 % 1000 / 100, p.toNat % 10000 % 1000 % 100 / 10,
    p.toNat % 10000 % 1000 % 100 % 10, by omega, by omega, by omega, by omega, by omega, by omega, ?_⟩
  rw [exec_stepsp, hpow, hreply]

/-- Settles O23: code 201 has its row, and the digits of ENC3 are SPEED's, each with the character "0" added. -/
theorem speedQueryRepliesThreeDigits : Obligations.SpeedQueryRepliesThreeDigits := by
  unfold Obligations.SpeedQueryRepliesThreeDigits
  refine ⟨codeDecodesTo_of_row fun _ => rfl, fun s => ?_⟩
  simp only [exec_speedq, enc3, digitByte_eq_zero_char_add]

/-! ### The fixed string -/

theorem code_dataout_decodes : CodeDecodesTo 0xC8 .dataout := codeDecodesTo_of_row fun _ => rfl

/-- Settles O26: the string is the configuration's, and an admitted configuration bounds its length. -/
theorem dataOutRepliesTheFixedString : Obligations.DataOutRepliesTheFixedString := by
  unfold Obligations.DataOutRepliesTheFixedString
  exact ⟨code_dataout_decodes, fun s => ⟨exec_dataout s, s.cfg.dataOutString_length⟩⟩

/-- Settles O57: no instruction before it changes the configuration, and DATAOUT replies the configuration's string. -/
theorem dataOutRepliesTheSameAlways : Obligations.DataOutRepliesTheSameAlways := by
  unfold Obligations.DataOutRepliesTheSameAlways
  refine ⟨code_dataout_decodes, fun is s => ?_⟩
  obtain ⟨t, hrun⟩ := perform_completes is s
  obtain ⟨hcfg, -⟩ := perform_frame is hrun
  rw [← hcfg]
  exact ⟨t, hrun, exec_dataout t⟩

/-! ### The unassigned codes -/

/-- Settles O27: a code that is none of the assigned ones has the row of NOP, whatever the parameter bytes. -/
theorem unassignedCodesAreNoOperation : Obligations.UnassignedCodesAreNoOperation := by
  unfold Obligations.UnassignedCodesAreNoOperation
  intro code (hcode : code ∉ assignedCodes)
  exact ⟨codeDecodesTo_of_row (commandOf_of_unassigned hcode), exec_nop code⟩

end Sys2Proof.Machine
end

section
/-! PROOFS of the family 60_exceptions: every operation completes, and impossible configurations are refused. -/

namespace Sys2Proof.Machine

/-! ### Every operation completes -/

/-- What an instruction leaves presented is well formed if all that was presented is: neither that list nor the
configuration it is judged by changes. -/
theorem exec_pendingWellFormed {i : Instr} {s t : State} (hs : s.PendingWellFormed) (h : exec i s = .next t) :
    t.PendingWellFormed := by
  obtain ⟨hcfg, hpending⟩ := exec_frame h
  rwa [State.PendingWellFormed, hcfg, hpending]

/-- Settles O7: the oldest operation decodes because it is well formed, its instruction completes in every state, and the
rest stays presented. -/
theorem everyOperationCompletes : Obligations.EveryOperationCompletes := by
  unfold Obligations.EveryOperationCompletes
  intro s op rest hwf hp
  rw [State.PendingWellFormed, hp, List.forall_mem_cons] at hwf
  obtain ⟨hop, hrest⟩ := hwf
  obtain ⟨i, hdecode⟩ := decode_of_wf hop
  obtain ⟨t, hexec⟩ := exec_completes i (s.setPending rest)
  obtain ⟨-, hpending⟩ := exec_frame hexec
  exact ⟨t, (step_of_decode hp hdecode).trans hexec, hpending, exec_pendingWellFormed hrest hexec⟩

/-! ### Impossible configurations are refused -/

/-- A breach is found exactly when some constraint is broken (60_exceptions.md R133). -/
theorem breaches_ne_nil_iff (p : Params) :
    p.breaches ≠ [] ↔
      p.timerWidth = 0 ∨ p.baseInterval > 2 ^ p.timerWidth - 1 ∨
      p.pow10.p1 = 0 ∨ p.pow10.p2 = 0 ∨ p.pow10.p3 = 0 ∨ p.pow10.p4 = 0 ∨
      p.dataOutString = [] ∨ p.dataOutString.length > 255 ∨ p.cmdOffset > 7 ∨ p.paramOffset > 6 ∨
      p.cmdOffset = p.paramOffset ∨ p.cmdOffset = p.paramOffset + 1 := by
  rw [Ne, Params.breaches_eq_nil_iff, ← List.length_eq_zero_iff]
  omega

/-- Settles O55: boot refuses the parameters with a breach and admits those without, and `Params.breaches` finds one exactly
when a constraint is broken. -/
theorem impossibleConfigurationsAreRefused : Obligations.ImpossibleConfigurationsAreRefused := by
  unfold Obligations.ImpossibleConfigurationsAreRefused
  refine fun p => ⟨fun hbroken => ?_, ?_⟩
  · have hbreach : p.breaches ≠ [] := (breaches_ne_nil_iff p).mpr hbroken
    exact ⟨p.breaches, hbreach, boot_of_breach hbreach⟩
  · rintro ⟨hwidth, hbase, hp1, hp2, hp3, hp4, hstring, hlength, hcmd, hparam, hclashHi, hclashLo⟩
    have hadmitted : p.breaches = [] := (Params.breaches_eq_nil_iff p).mpr
      ⟨hwidth, hbase, ⟨hp1, hp2, hp3, hp4⟩, mt List.length_eq_zero_iff.mp hstring, hlength, hcmd, hparam, hclashHi, hclashLo⟩
    exact ⟨⟨p, hadmitted⟩, rfl, boot_of_admitted hadmitted⟩

end Sys2Proof.Machine
end

section
/-! PROOFS of the family 70_reset_and_hazards: the reset state, and what a COMMAND or a TICK makes of the one before it. -/

namespace Sys2Proof.Machine

/-! ### Stepping commands one after another -/

theorem perform_singleton (i : Instr) (s : State) : perform [i] s = exec i s := by
  obtain ⟨t, ht⟩ := exec_completes i s
  exact (perform_cons ht []).trans ht.symm

/-- Each stepping command has its row of direction and count. -/
theorem exists_mem_steppingCommands {i : Instr} (h : i ∈ [Instr.stepfwd, .stepbwd, .rotfwd, .rotbwd]) :
    ∃ d n, (i, d, n) ∈ steppingCommands := by
  simp only [List.mem_cons, List.not_mem_nil, or_false] at h
  obtain rfl | rfl | rfl | rfl := h
  · exact ⟨.forward, 1, by decide⟩
  · exact ⟨.backward, 1, by decide⟩
  · exact ⟨.forward, 48, by decide⟩
  · exact ⟨.backward, 48, by decide⟩

/-- A stepping command ends the same from any two states that differ only in MS, STEPS and the reply, the three registers it
overwrites (R155). -/
theorem exec_stepping_of_overwritten {i : Instr} (hi : i ∈ [Instr.stepfwd, .stepbwd, .rotfwd, .rotbwd]) (s : State)
    (m : MotorState) (n : Byte) (r : Option (List Byte)) :
    exec i { s with ms := m, steps := n, reply := r } = exec i s := by
  obtain ⟨d, count, hmem⟩ := exists_mem_steppingCommands hi
  rw [exec_of_mem_steppingCommands hmem, exec_of_mem_steppingCommands hmem]
  rfl

/-- Settles O16: the first command writes only what the last one overwrites, so it can be left out, and so can each one
after it. -/
theorem lastSteppingCommandWins : Obligations.LastSteppingCommandWins := by
  unfold Obligations.LastSteppingCommandWins
  intro is i s his hi
  induction is generalizing s with
  | nil => exact perform_singleton i s
  | cons j js ih =>
    obtain ⟨hj, hjs⟩ := List.forall_mem_cons.mp his
    obtain ⟨d, n, hmem⟩ := exists_mem_steppingCommands hj
    calc perform (j :: js ++ [i]) s
        = perform (js ++ [i]) (startStepping d (BitVec.ofNat 8 n) s) :=
          perform_cons (exec_of_mem_steppingCommands hmem s) _
      _ = exec i (startStepping d (BitVec.ofNat 8 n) s) := ih _ hjs
      _ = exec i s := exec_stepping_of_overwritten hi s _ _ _

/-! ### The life of a reply -/

/-- No reply is longer than the 255 bytes of the reply buffer (20_memory.md R41). -/
theorem commandReply_length_le (c : Config) (speed : Byte) (i : Instr) : (commandReply c speed i).length ≤ 255 := by
  cases i with
  | dataout => exact c.dataOutString_length.2
  | _ => simp [commandReply, enc3, enc5]

/-- A COMMAND does not read the reply it replaces (20_memory.md R41). -/
theorem exec_command_of_reply {i : Instr} (hc : i.isCommand = true) (s : State) (old : Option (List Byte)) :
    exec i { s with reply := old } = exec i s := by
  cases i with
  | tick => cases hc
  | _ => rfl

/-- Settles O29: the reply is in the frame of a TICK, and each COMMAND writes its own without reading the old one. -/
theorem replyLivesUntilTheNextCommand : Obligations.ReplyLivesUntilTheNextCommand := by
  unfold Obligations.ReplyLivesUntilTheNextCommand
  constructor
  · intro e s
    obtain ⟨-, -, hreply, -⟩ := tickState_frame e s
    exact ⟨_, rfl, hreply⟩
  · intro i s hc
    obtain ⟨t, ht⟩ := exec_completes i s
    exact ⟨t, _, commandReply_length_le _ _ i, exec_command_reply hc ht,
      fun old => (exec_command_of_reply hc s old).trans ht⟩

/-! ### The TICKs before the first that qualifies -/

/-- As long as the time collected stays below the threshold, TICKs write only CUR, PREV_MS and ACC, and ACC loses none of
the time (40_tick.md R73, R75). -/
theorem perform_replicate_tick_of_lt {s : State} {e k : Nat} (hspeed : s.speed ≠ 0)
    (hlt : s.acc + k * e < threshold s.cfg s.speed) :
    ∃ c m, perform (List.replicate k (.tick e)) s = .next { s with cur := c, prevMs := m, acc := s.acc + k * e } := by
  induction k generalizing s with
  | zero => exact ⟨s.cur, s.prevMs, by rw [Nat.zero_mul, Nat.add_zero]; rfl⟩
  | succ k ih =>
    have hsum : s.acc + (k + 1) * e = s.acc + e + k * e := by ring
    rw [hsum] at hlt ⊢
    have hmax := threshold_le_accMax s.cfg hspeed
    have hadd : accAdd s.cfg s.acc e = s.acc + e := accAdd_of_lt (by omega)
    have hgated : ¬ s.Qualifies e := by
      rw [State.Qualifies, hadd]
      omega
    have hfirst := tickState_of_not_qualifies hgated
    rw [hadd] at hfirst
    obtain ⟨c, m, hrest⟩ := ih (s := { s with cur := gateCur s, prevMs := s.ms, acc := s.acc + e }) hspeed hlt
    exact ⟨c, m, (perform_cons (exec_tick_eq hfirst) _).trans hrest⟩

/-- Settles O43: k TICKs stay below the threshold, and one more reaches it, also where the accumulator saturates. -/
theorem firstQualifyingTickIsTheCeiling : Obligations.FirstQualifyingTickIsTheCeiling := by
  unfold Obligations.FirstQualifyingTickIsTheCeiling
  intro s e k hspeed hacc hsaturate _ _ hbelow hreach
  rw [← threshold_of_ne_zero s.cfg hspeed] at hbelow hreach
  obtain ⟨c, m, hperform⟩ := perform_replicate_tick_of_lt (s := s) (e := e) (k := k) hspeed (by omega)
  rw [hacc, Nat.zero_add] at hperform
  have hq : State.Qualifies { s with cur := c, prevMs := m, acc := k * e } e := by
    rw [State.Qualifies, accAdd_of_saturate hsaturate, ← Nat.succ_mul]
    exact le_min hreach (threshold_le_accMax s.cfg hspeed)
  exact ⟨_, _, hperform, rfl, rfl, rfl, rfl, rfl, rfl, hq, rfl, tickState_acc_of_qualifies hq⟩

/-! ### STOP, and INIT after it -/

theorem exec_stop (s : State) : exec .stop s = .next { s with ms := .stopped, init := false, reply := some [] } := rfl

theorem exec_init (s : State) : exec .init s = .next { s with ms := .idle, init := true, reply := some [] } := rfl

/-- STOP and the TICK after it that qualifies (R152). -/
theorem perform_stop_tick_of_qualifies {s : State} {e : Nat} (hq : s.Qualifies e) :
    perform [.stop, .tick e] s = .next
      { s with
        ms := .stopped
        init := false
        reply := some []
        prevMs := .stopped
        acc := 0
        phase := 0b0000
        steps := 0 } := by
  rw [perform_cons (exec_stop s), perform_singleton]
  exact exec_tick_eq (tickState_of_stopped rfl hq)

/-- STOP and a TICK after it that does not qualify (R152). -/
theorem perform_stop_tick_of_not_qualifies {s : State} {e : Nat} (hq : ¬ s.Qualifies e) :
    perform [.stop, .tick e] s = .next
      { s with
        ms := .stopped
        init := false
        reply := some []
        prevMs := .stopped
        acc := accAdd s.cfg s.acc e } := by
  rw [perform_cons (exec_stop s), perform_singleton]
  apply exec_tick_eq
  rw [tickState_of_not_qualifies (by exact hq), gateCur_of_not_stepping rfl]

/-- Settles O45: a TICK after STOP is one of a stopped state, and a stepping command overwrites all that STOP wrote but
INIT. -/
theorem stopActsAtTheNextQualifyingTick : Obligations.StopActsAtTheNextQualifyingTick := by
  unfold Obligations.StopActsAtTheNextQualifyingTick
  intro s e
  refine ⟨fun hgated => ?_, fun hq => ?_, fun i hi => ?_⟩
  · exact ⟨_, perform_stop_tick_of_not_qualifies hgated, rfl, rfl, rfl⟩
  · exact ⟨_, perform_stop_tick_of_qualifies hq, rfl, rfl, rfl, rfl⟩
  · rw [perform_cons (exec_stop s), perform_singleton]
    exact exec_stepping_of_overwritten hi { s with init := false } _ _ _

/-- An Idle state that is initialized stays so, and no TICK writes its lines (40_tick.md R79). -/
theorem tickState_of_idle_initialized (e : Nat) {s : State} (hms : s.ms = .idle) (hi : s.init = true) :
    (tickState e s).phase = s.phase ∧ (tickState e s).ms = .idle ∧ (tickState e s).init = true := by
  by_cases hq : s.Qualifies e
  · rw [tickState_of_idle_init hms hq hi]
    exact ⟨rfl, hms, hi⟩
  · rw [tickState_of_not_qualifies hq]
    exact ⟨rfl, hms, hi⟩

theorem perform_ticks_of_idle_initialized (elapsed : List Nat) {s : State} (hms : s.ms = .idle) (hi : s.init = true) :
    ∃ t, perform (elapsed.map .tick) s = .next t ∧ t.phase = s.phase ∧ t.ms = .idle ∧ t.init = true := by
  induction elapsed generalizing s with
  | nil => exact ⟨s, rfl, rfl, hms, hi⟩
  | cons e es ih =>
    obtain ⟨hphase, hms', hi'⟩ := tickState_of_idle_initialized e hms hi
    obtain ⟨t, hperform, hrest⟩ := ih hms' hi'
    rw [hphase] at hrest
    exact ⟨t, (perform_cons rfl _).trans hperform, hrest⟩

/-- Settles O46: the qualifying TICK after STOP clears the lines, and INIT leaves a state in which no TICK writes them. -/
theorem initSuppressesTheHolding : Obligations.InitSuppressesTheHolding := by
  unfold Obligations.InitSuppressesTheHolding
  intro s e elapsed hq
  have hheld : perform (.stop :: .tick e :: .init :: elapsed.map .tick) s = _ :=
    (perform_append _ _ (perform_stop_tick_of_qualifies hq)).trans (perform_cons (exec_init _) _)
  rw [hheld]
  exact perform_ticks_of_idle_initialized elapsed rfl rfl

/-! ### The correction at a reversal goes by the position -/

/-- With the positions two apart CUR is below LAST exactly in the lower half (10_state.md R30). -/
theorem revSign_forward_iff {cur last : Pos} (h : cur - last = 2) :
    revSign .forward cur last = true ↔ cur = 0 ∨ cur = 1 := by
  revert cur last; decide

/-- With the positions two apart CUR is above LAST exactly in the upper half (10_state.md R30). -/
theorem revSign_backward_iff {cur last : Pos} (h : cur - last = 2) :
    revSign .backward cur last = true ↔ cur = 2 ∨ cur = 3 := by
  revert cur last; decide

/-- A stepping command that changes the motor state, and a TICK that does not qualify, correct CUR as REVERSAL says
(40_tick.md R71). -/
theorem perform_stepping_gated_tick {i : Instr} {d : Direction} {n : Nat} {s : State} {e : Nat}
    (hmem : (i, d, n) ∈ steppingCommands) (hgated : ¬ s.Qualifies e) (hprev : s.prevMs ≠ d.motorState) :
    ∃ t, perform [i, .tick e] s = .next t ∧
      t.cur = if reversal s.cfg d s.cur s.last = true then d.ahead s.cur else s.cur := by
  let s₀ := startStepping d (BitVec.ofNat 8 n) s
  have hstarted : perform [i, .tick e] s = exec (.tick e) s₀ :=
    (perform_cons (exec_of_mem_steppingCommands hmem s) _).trans (perform_singleton _ _)
  have hreversed : s₀.ms ≠ s₀.prevMs := hprev.symm
  refine ⟨_, hstarted.trans (exec_tick_eq (tickState_of_not_qualifies hgated)), ?_⟩
  calc gateCur s₀
      = if s₀.ms ≠ s₀.prevMs ∧ reversal s₀.cfg d s₀.cur s₀.last = true then d.ahead s₀.cur else s₀.cur :=
        gateCur_of_stepping d.direction_motorState
    _ = if reversal s₀.cfg d s₀.cur s₀.last = true then d.ahead s₀.cur else s₀.cur := by
        simp only [hreversed, ne_eq, not_false_eq_true, true_and]

/-- STEPFWD under REV_SIGN, whatever other state it comes from (R154). -/
theorem stepfwd_corrects_by_position {s : State} {e : Nat} (hrule : s.cfg.reversal = .revSign)
    (hapart : s.cur - s.last = 2) (hgated : ¬ s.Qualifies e) (hprev : s.prevMs ≠ .steppingForward) :
    ∃ t, perform [.stepfwd, .tick e] s = .next t ∧ t.cur = if s.cur = 0 ∨ s.cur = 1 then s.cur + 1 else s.cur := by
  obtain ⟨t, hperform, hcur⟩ :=
    perform_stepping_gated_tick (i := .stepfwd) (d := .forward) (n := 1) (by decide) hgated hprev
  simp only [reversal_revSign hrule, revSign_forward_iff hapart] at hcur
  exact ⟨t, hperform, hcur⟩

/-- STEPBWD under REV_SIGN, whatever other state it comes from (R154). -/
theorem stepbwd_corrects_by_position {s : State} {e : Nat} (hrule : s.cfg.reversal = .revSign)
    (hapart : s.cur - s.last = 2) (hgated : ¬ s.Qualifies e) (hprev : s.prevMs ≠ .steppingBackward) :
    ∃ t, perform [.stepbwd, .tick e] s = .next t ∧ t.cur = if s.cur = 2 ∨ s.cur = 3 then s.cur - 1 else s.cur := by
  obtain ⟨t, hperform, hcur⟩ :=
    perform_stepping_gated_tick (i := .stepbwd) (d := .backward) (n := 1) (by decide) hgated hprev
  simp only [reversal_revSign hrule, revSign_backward_iff hapart] at hcur
  exact ⟨t, hperform, hcur⟩

/-- Settles O48: each clause is one of the two corrections, for a state that is not the one recorded in PREV_MS. -/
theorem reversalIsCorrectedByPosition : Obligations.ReversalIsCorrectedByPosition := by
  unfold Obligations.ReversalIsCorrectedByPosition
  intro s e hrule hapart hgated
  have hfwd := stepfwd_corrects_by_position hrule hapart hgated
  have hbwd := stepbwd_corrects_by_position hrule hapart hgated
  refine ⟨fun hprev => hbwd ?_, fun hprev => hfwd ?_, fun hprev => ⟨hfwd ?_, hbwd ?_⟩⟩
  · simp [hprev]
  · simp [hprev]
  · obtain hprev | hprev := hprev <;> simp [hprev]
  · obtain hprev | hprev := hprev <;> simp [hprev]

/-! ### The configuration along a run -/

theorem step_cfg {s t : State} (h : step s = .next t) : t.cfg = s.cfg := by
  obtain ⟨-, rfl⟩ | ⟨_, rest, _, -, -, hexec⟩ := step_next h
  · rfl
  · obtain ⟨hcfg, -⟩ := exec_frame hexec
    exact hcfg

/-- A run that answers a next state took a first step that did, and went on from there. -/
theorem core_run_succ_next {n : Nat} {s t : State} (h : Sys2Proof.core.run (n + 1) s = .next t) :
    ∃ u, step s = .next u ∧ Sys2Proof.core.run n u = .next t := by
  cases hstep : step s with
  | next u => exact ⟨u, rfl, (core_run_succ hstep n).symm.trans h⟩
  | fault f => cases f
  | refused r =>
    have hrefused : Sys2Proof.core.step s = .refused r := hstep
    simp [Host.Core.run, hrefused] at h

/-- Settles O53: no step writes the configuration, so no number of them does. -/
theorem configurationNeverChanges : Obligations.ConfigurationNeverChanges := by
  unfold Obligations.ConfigurationNeverChanges
  intro n s t h
  induction n generalizing s with
  | zero => cases h; rfl
  | succ n ih =>
    obtain ⟨u, hstep, hrest⟩ := core_run_succ_next h
    exact (ih u hrest).trans (step_cfg hstep)

/-! ### The reset state -/

/-- Settles O47: the reset state is Idle and not initialized, so the TICK sets the lines of LAST = 0 and CUR = 2. -/
theorem firstQualifyingTickAfterResetHolds : Obligations.FirstQualifyingTickAfterResetHolds := by
  unfold Obligations.FirstQualifyingTickAfterResetHolds
  intro c e hreach
  have hspeed : (State.resetWith c).speed ≠ 0 := (by decide : (20 : Byte) ≠ 0)
  have hq : (State.resetWith c).Qualifies e := by
    rw [State.Qualifies, threshold_of_ne_zero _ hspeed]
    exact hreach
  have hlines : energize (energize 0b0000 0) 2 = 0b0101 := by decide
  apply exec_tick_eq
  rw [tickState_of_idle_not_init rfl hq rfl, ← hlines]
  rfl

/-- Settles O49: the reset state and the reset machine's configuration are defined by these values. -/
theorem resetLeavesTheTabledValues : Obligations.ResetLeavesTheTabledValues := by
  unfold Obligations.ResetLeavesTheTabledValues
  exact ⟨fun _ => rfl, Config.hardware, rfl, rfl, rfl, rfl, rfl, rfl, rfl⟩

end Sys2Proof.Machine
end
